-- ==== Sys2Proof/Word.lean ====
section
/-! DEFINITION. The widths of the BX216: words of the memory bus, bytes of the maintenance link, lane sets and cause sets. -/

namespace Sys2Proof

/-- A word of the memory bus and of the patch store: 32 bits, lane 0 the least significant byte (R23). -/
abbrev Word := BitVec 32

/-- A byte of a link frame (R184). -/
abbrev Byte := BitVec 8

/-- A set of byte lanes: bit n set means that lane n is in the set (R184). -/
abbrev Lanes := BitVec 4

/-- A set of alert causes: bit n set means that the cause numbered n in R179 is in the set (R184). -/
abbrev CauseSet := BitVec 14

/-- A capture sequence number, which wraps from 65,535 to 0 (R96). -/
abbrev Sequence := BitVec 16

end Sys2Proof
end

