-- ==== Sys2Proof/Config.lean ====
section
/-! DEFINITION. The fixed sizes and identification of the BX216. The spec leaves no result of a command open, so no free value stands here (NOTES.md, Assumptions). -/

namespace Sys2Proof.Config

/-- Slots in the table (R1). -/
abbrev slotCount : Nat := 24

/-- Words of the memory's address space (R23). -/
abbrev spaceWords : Nat := 4194304

/-- Words of the patch store (R45). -/
abbrev storeWords : Nat := 4096

/-- Words of an aligned block (R24). -/
abbrev blockWords : Nat := 8

/-- Records the capture queue holds at most (R94). -/
abbrev captureDepth : Nat := 64

/-- Commands the command queue, and entries the response queue, hold at most (R151). -/
abbrev linkDepth : Nat := 4

/-- Bytes of the longest frame (R186, R187). -/
abbrev frameBytes : Nat := 64

/-- Bus clocks of a MARK pulse (R82). -/
abbrev markClocks : Nat := 4

/-- Bus clocks of one unit of the downstream timeout (R35). -/
abbrev timeoutUnit : Nat := 16

/-- The part code that PING answers (R163). -/
abbrev partCode : Nat := 0xB216

/-- The revision that PING answers (R163). -/
abbrev revision : Nat := 1

end Sys2Proof.Config
end

