-- ==== Sys2Proof/Vocabulary.lean ====
section
/-! DEFINITION. The named values and records that the commands and the state of the BX216 are made of: modes, states, statuses, causes, bus requests, slot configurations, link commands. -/

namespace Sys2Proof

/-! ## Enumerations -/

/-- The three part states (R166). -/
inductive PartState where
  | starting | bypass | active
  deriving DecidableEq, Repr

/-- The kind of a bus request (R23). -/
inductive Kind where
  | read | write
  deriving DecidableEq, Repr

/-- The mode of a slot (R2). -/
inductive Mode where
  | watch | patch | guard | shadow
  deriving DecidableEq, Repr

/-- The state of a slot in the active table (R9). -/
inductive SlotState where
  | idle | armed | live | spent
  deriving DecidableEq, Repr

/-- What a slot does at its hit limit (R6). -/
inductive LimitAction where
  | notify | retire | handoff
  deriving DecidableEq, Repr

/-- The outcome of a host request (R37). -/
inductive RequestOutcome where
  | okay | refused | memError | timeout | storeFault
  deriving DecidableEq, Repr

/-- The capture full policy (R95). -/
inductive Policy where
  | drop | hold
  deriving DecidableEq, Repr

/-- The three requesters of the downstream arbiter (R113). -/
inductive Requester where
  | forward | link | sweep
  deriving DecidableEq, Repr

/-- The sweep state (R128). -/
inductive SweepState where
  | idle | running | suspended
  deriving DecidableEq, Repr

/-- The outcome field of a sweep record (R128); `pending` is the spec's NONE, held while the sweep has not ended. -/
inductive SweepOutcome where
  | pending | done | failed | aborted
  deriving DecidableEq, Repr

/-- The fail cause of a sweep record (R128). -/
inductive FailCause where
  | memError | timeout | storeParity
  deriving DecidableEq, Repr

/-- The source of a word of a view read (R124). -/
inductive ViewSource where
  | memory | store | storeFault | guarded
  deriving DecidableEq, Repr

/-- The statuses of responses, refusals and the empty frame (R187). -/
inductive Status where
  | ok | busy | conflict | range | misaligned | notFound | noSweep | starting | pinned | shadowLive
  | unknown | length | memError | timeout | storeParity | checkFail | short | oversize | full | vacant
  deriving DecidableEq, Repr

/-- The 14 alert causes, in the order of their numbers (R179). -/
inductive Cause where
  | started | captureLevel | captureLoss | slotHit | slotLimit | slotLost | handoffMissed | storeParity
  | downError | downTimeout | malformed | sweepEnd | forcedBypass | linkRefusal
  deriving DecidableEq, Repr

/-! ## The memory bus -/

/-- One word of a write with its lane-enable set (R23). -/
structure WriteWord where
  data  : Word
  lanes : Lanes
  deriving DecidableEq, Repr

/-- A request of the memory bus: kind, first address, and a length or the words written (R23). -/
inductive BusRequest where
  | read (addr len : Nat)
  | write (addr : Nat) (words : List WriteWord)
  deriving DecidableEq, Repr

/-- The response of the memory, or of the part to the host (R25). -/
inductive BusResponse where
  | okay (data : List Word)
  | error
  deriving DecidableEq, Repr

/-! ## Slot configurations -/

/-- The fields of a slot configuration as SLOT_STAGE gives them, each a number of its byte layout (R189).
The reserved bits of the lane mask and of the flag byte are ignored and stored as 0 (R185), so they do not stand here. -/
structure SlotFields where
  mode    : Nat
  k       : Nat
  base    : Nat
  kinds   : Nat
  offset  : Nat
  lanes   : Lanes
  limit   : Nat
  action  : Nat
  link    : Nat
  capture : Bool
  alert   : Bool
  mark    : Bool
  initial : Nat
  deriving DecidableEq, Repr

/-- A slot configuration that passed SLOT_STAGE's checks (01 section 1.2). `kinds`, `offset` and `link` are kept
as written where the mode or the action does not use them (R185). -/
structure SlotConfig where
  mode    : Mode
  k       : Nat
  base    : Nat
  kinds   : Nat
  offset  : Nat
  lanes   : Lanes
  limit   : Nat
  action  : LimitAction
  link    : Nat
  capture : Bool
  alert   : Bool
  mark    : Bool
  initial : SlotState
  deriving DecidableEq, Repr

/-! ## The configuration set -/

/-- The seven fields of SET_CONFIG as its 10 bytes give them (R188). -/
structure ConfigFields where
  prescale  : Nat
  timeout   : Nat
  patience  : Nat
  policy    : Nat
  holdLimit : Nat
  threshold : Nat
  enable    : Nat
  deriving DecidableEq, Repr

/-- The configuration set (R175). -/
structure ConfigSet where
  prescale  : Nat
  timeout   : Nat
  patience  : Nat
  policy    : Policy
  holdLimit : Nat
  threshold : Nat
  enable    : CauseSet
  deriving DecidableEq, Repr

/-! ## Link commands -/

/-- The 35 commands of the maintenance link with their arguments (R188). -/
inductive Command where
  | nop
  | ping (echo : List Byte)
  | partStatus
  | engage
  | disengage (force : Nat)
  | softReset
  | setConfig (fields : ConfigFields)
  | readConfig
  | alertStatus
  | alertAck (causes : Nat)
  | slotStage (slot : Nat) (fields : SlotFields)
  | slotUnstage (slot : Nat)
  | tableCommit
  | tableDiscard
  | slotRead (slot : Nat)
  | slotState (slot state : Nat)
  | slotAck (slot : Nat)
  | captureRead (skip count : Nat)
  | captureAck (sequence : Nat)
  | captureFlush
  | captureInfo
  | readRaw (addr count : Nat)
  | readView (addr count : Nat)
  | writeRaw (addr : Nat) (words : List WriteWord)
  | writeVerify (addr : Nat) (word : WriteWord)
  | lastAccess
  | storeRead (offset count : Nat)
  | storeWrite (offset poison : Nat) (words : List Word)
  | sweepCheck (addr count : Nat) (expected : Option Word)
  | sweepFill (addr count offset : Nat)
  | sweepPush (offset count addr verify : Nat)
  | sweepSuspend
  | sweepResume
  | sweepAbort
  | sweepStatus
  deriving DecidableEq, Repr

end Sys2Proof
end

