-- ==== Sys2Proof/Syntax.lean ====
section
/-! DEFINITION. The commands of the BX216: one constructor for each row of spec/opcode_table.json. -/

namespace Sys2Proof

/-- The 54 rows of the opcode table. A link command's row carries the sequence number of the frame that brings it
(R186) and its arguments (R188); it stands for the arrival of that frame, intact, and for its start where R158 lets it
start (notes/assumptions/7.md). -/
inductive Instr where
  -- lines, time and upsets
  | powerOnReset
  | resetRelease
  | startupClearComplete
  | fbypAssert
  | fbypRelease
  | storeUpset (offset : Nat) (data : Word)
  -- the memory bus
  | hostRequestAccept (request : BusRequest)
  | downstreamResponse (response : BusResponse)
  | linkAccessResponse (response : BusResponse)
  | sweepBlockResponse (response : BusResponse)
  -- time
  | downstreamTimeoutExpiry
  | holdExpiry
  | timestampTick
  | markPulseEnd
  -- the link's machinery; `ldi` holds the bits taken from LDI in the exchange, one per clock (R150)
  | lselAssert
  | exchangeEnd (ldi : List Bool)
  | commandStart
  | unknownCommand (seq : Byte) (code : Nat) (args : List Byte)
  | boundaryCommandExecution
  -- link commands
  | nop (seq : Byte)
  | ping (seq : Byte) (echo : List Byte)
  | partStatus (seq : Byte)
  | engage (seq : Byte)
  | disengage (seq : Byte) (force : Nat)
  | softReset (seq : Byte)
  | setConfig (seq : Byte) (fields : ConfigFields)
  | readConfig (seq : Byte)
  | alertStatus (seq : Byte)
  | alertAck (seq : Byte) (causes : Nat)
  | slotStage (seq : Byte) (slot : Nat) (fields : SlotFields)
  | slotUnstage (seq : Byte) (slot : Nat)
  | tableCommit (seq : Byte)
  | tableDiscard (seq : Byte)
  | slotRead (seq : Byte) (slot : Nat)
  | slotState (seq : Byte) (slot state : Nat)
  | slotAck (seq : Byte) (slot : Nat)
  | captureRead (seq : Byte) (skip count : Nat)
  | captureAck (seq : Byte) (sequence : Nat)
  | captureFlush (seq : Byte)
  | captureInfo (seq : Byte)
  | readRaw (seq : Byte) (addr count : Nat)
  | readView (seq : Byte) (addr count : Nat)
  | writeRaw (seq : Byte) (addr : Nat) (words : List WriteWord)
  | writeVerify (seq : Byte) (addr : Nat) (word : WriteWord)
  | lastAccess (seq : Byte)
  | storeRead (seq : Byte) (offset count : Nat)
  | storeWrite (seq : Byte) (offset poison : Nat) (words : List Word)
  | sweepCheck (seq : Byte) (addr count : Nat) (expected : Option Word)
  | sweepFill (seq : Byte) (addr count offset : Nat)
  | sweepPush (seq : Byte) (offset count addr verify : Nat)
  | sweepSuspend (seq : Byte)
  | sweepResume (seq : Byte)
  | sweepAbort (seq : Byte)
  | sweepStatus (seq : Byte)
  deriving DecidableEq, Repr

end Sys2Proof
end

