-- ==== Sys2Proof/WellFormed.lean ====
section
/-! DEFINITION. Which terms of Instr are commands of the BX216: the widths of the argument fields and the shapes of bus requests. -/

namespace Sys2Proof

/-- A number that fits a field of `n` bytes (R184). -/
def fits (n v : Nat) : Bool := v < 256 ^ n

/-- A request the bus can carry: an address of the space and a length of 1 to 8 words (R23). -/
def BusRequest.wellFormed : BusRequest → Bool
  | .read addr len => addr < Config.spaceWords && 1 ≤ len && len ≤ Config.blockWords
  | .write addr words => addr < Config.spaceWords && 1 ≤ words.length && words.length ≤ Config.blockWords

/-- A response the bus can carry: at most 8 words (R25, R23). -/
def BusResponse.wellFormed : BusResponse → Bool
  | .okay data => data.length ≤ Config.blockWords
  | .error => true

/-- Each field fits its bytes of the slot configuration (R189). -/
def SlotFields.wellFormed (f : SlotFields) : Bool :=
  fits 1 f.mode && fits 1 f.k && fits 3 f.base && fits 1 f.kinds && fits 2 f.offset && fits 2 f.limit &&
    fits 1 f.action && fits 1 f.link && fits 1 f.initial

/-- Each field fits its bytes of the configuration set (R188). -/
def ConfigFields.wellFormed (f : ConfigFields) : Bool :=
  fits 1 f.prescale && fits 2 f.timeout && fits 1 f.patience && fits 1 f.policy && fits 2 f.holdLimit &&
    fits 1 f.threshold && fits 2 f.enable

/-- The command codes that R188 assigns. -/
def assignedCodes : List Nat :=
  [0x00, 0x01, 0x02, 0x03, 0x04, 0x05, 0x06, 0x07, 0x08, 0x09, 0x10, 0x11, 0x12, 0x13, 0x14, 0x15, 0x16,
   0x20, 0x21, 0x22, 0x23, 0x30, 0x31, 0x32, 0x33, 0x34, 0x38, 0x39, 0x40, 0x41, 0x42, 0x43, 0x44, 0x45, 0x46]

/-- The arguments fit their fields, and the frame that carries them fits 64 bytes (R186, R188). -/
def Command.wellFormed : Command → Bool
  | .nop => true
  | .ping echo => echo.length ≤ 8
  | .partStatus => true
  | .engage => true
  | .disengage force => fits 1 force
  | .softReset => true
  | .setConfig f => f.wellFormed
  | .readConfig => true
  | .alertStatus => true
  | .alertAck causes => fits 2 causes
  | .slotStage slot f => fits 1 slot && f.wellFormed
  | .slotUnstage slot => fits 1 slot
  | .tableCommit => true
  | .tableDiscard => true
  | .slotRead slot => fits 1 slot
  | .slotState slot state => fits 1 slot && fits 1 state
  | .slotAck slot => fits 1 slot
  | .captureRead skip count => fits 1 skip && fits 1 count
  | .captureAck sequence => fits 2 sequence
  | .captureFlush => true
  | .captureInfo => true
  | .readRaw addr count => fits 3 addr && fits 1 count
  | .readView addr count => fits 3 addr && fits 1 count
  | .writeRaw addr words => fits 3 addr && words.length ≤ 10
  | .writeVerify addr _ => fits 3 addr
  | .lastAccess => true
  | .storeRead offset count => fits 2 offset && fits 1 count
  | .storeWrite offset poison words => fits 2 offset && fits 1 poison && words.length ≤ 13
  | .sweepCheck addr count _ => fits 3 addr && fits 3 count
  | .sweepFill addr count offset => fits 3 addr && fits 2 count && fits 2 offset
  | .sweepPush offset count addr verify => fits 2 offset && fits 2 count && fits 3 addr && fits 1 verify
  | .sweepSuspend => true
  | .sweepResume => true
  | .sweepAbort => true
  | .sweepStatus => true

/-- The link command that a row stands for, with the sequence number of its frame; absent for the other rows. -/
def Instr.command : Instr → Option (Byte × Command)
  | .powerOnReset => none
  | .resetRelease => none
  | .startupClearComplete => none
  | .fbypAssert => none
  | .fbypRelease => none
  | .storeUpset _ _ => none
  | .hostRequestAccept _ => none
  | .downstreamResponse _ => none
  | .linkAccessResponse _ => none
  | .sweepBlockResponse _ => none
  | .downstreamTimeoutExpiry => none
  | .holdExpiry => none
  | .timestampTick => none
  | .markPulseEnd => none
  | .lselAssert => none
  | .exchangeEnd _ => none
  | .commandStart => none
  | .unknownCommand _ _ _ => none
  | .boundaryCommandExecution => none
  | .nop q => some (q, .nop)
  | .ping q echo => some (q, .ping echo)
  | .partStatus q => some (q, .partStatus)
  | .engage q => some (q, .engage)
  | .disengage q force => some (q, .disengage force)
  | .softReset q => some (q, .softReset)
  | .setConfig q f => some (q, .setConfig f)
  | .readConfig q => some (q, .readConfig)
  | .alertStatus q => some (q, .alertStatus)
  | .alertAck q causes => some (q, .alertAck causes)
  | .slotStage q slot f => some (q, .slotStage slot f)
  | .slotUnstage q slot => some (q, .slotUnstage slot)
  | .tableCommit q => some (q, .tableCommit)
  | .tableDiscard q => some (q, .tableDiscard)
  | .slotRead q slot => some (q, .slotRead slot)
  | .slotState q slot state => some (q, .slotState slot state)
  | .slotAck q slot => some (q, .slotAck slot)
  | .captureRead q skip count => some (q, .captureRead skip count)
  | .captureAck q sequence => some (q, .captureAck sequence)
  | .captureFlush q => some (q, .captureFlush)
  | .captureInfo q => some (q, .captureInfo)
  | .readRaw q addr count => some (q, .readRaw addr count)
  | .readView q addr count => some (q, .readView addr count)
  | .writeRaw q addr words => some (q, .writeRaw addr words)
  | .writeVerify q addr word => some (q, .writeVerify addr word)
  | .lastAccess q => some (q, .lastAccess)
  | .storeRead q offset count => some (q, .storeRead offset count)
  | .storeWrite q offset poison words => some (q, .storeWrite offset poison words)
  | .sweepCheck q addr count expected => some (q, .sweepCheck addr count expected)
  | .sweepFill q addr count offset => some (q, .sweepFill addr count offset)
  | .sweepPush q offset count addr verify => some (q, .sweepPush offset count addr verify)
  | .sweepSuspend q => some (q, .sweepSuspend)
  | .sweepResume q => some (q, .sweepResume)
  | .sweepAbort q => some (q, .sweepAbort)
  | .sweepStatus q => some (q, .sweepStatus)

/-- The bits of an exchange's LDI line are free; a row's operands otherwise fit the fields that carry them. -/
def Instr.wellFormed (i : Instr) : Bool :=
  match i with
  | .storeUpset offset _ => offset < Config.storeWords
  | .hostRequestAccept request => request.wellFormed
  | .downstreamResponse response => response.wellFormed
  | .linkAccessResponse response => response.wellFormed
  | .sweepBlockResponse response => response.wellFormed
  | .unknownCommand _ code args => code < 256 && !assignedCodes.contains code && args.length ≤ 57
  | other => match other.command with
    | some (_, c) => c.wellFormed
    | none => true

end Sys2Proof
end

