-- ==== Sys2Proof/Decode.lean ====
section
/-! DEFINITION. The decoder over the rows of the opcode table that give bits. No row of spec/opcode_table.json gives a bit, so every word is refused. The bytes of link frames, which do spell commands, are read in Machine/Operands.lean. -/

namespace Sys2Proof

/-- The command that a word of `nbits` bits spells by the table: none, since no row has bits ("fields" is empty in every row). -/
def decodeTableWord (_nbits _w : Nat) : Option Instr := none

end Sys2Proof
end

