-- ==== Sys2Proof/Machine/Bytes.lean ====
section
/-! DEFINITION. Bytes, bits and lanes: byte order of link fields, the two CRCs, lane composition. -/

namespace Sys2Proof.Machine

/-! ## Numbers and words as bytes, most significant byte first (R184) -/

/-- A number in a field of `n` bytes, most significant byte first (R184). -/
def natBytes : Nat → Nat → List Byte
  | 0, _ => []
  | n + 1, v => natBytes n (v / 256) ++ [BitVec.ofNat 8 v]

/-- The number that a field's bytes hold, most significant byte first (R184). -/
def bytesNat (bs : List Byte) : Nat := bs.foldl (fun acc b => acc * 256 + b.toNat) 0

/-- A word in 4 bytes: the first sent is lane 3 (R184). -/
def wordBytes (w : Word) : List Byte := natBytes 4 w.toNat

/-- The word that 4 bytes hold, lane 3 first (R184). -/
def bytesWord (bs : List Byte) : Word := BitVec.ofNat 32 (bytesNat bs)

/-- A lane set in one byte, bits 4 to 7 zero (R184, R185). -/
def lanesByte (l : Lanes) : Byte := l.setWidth 8

/-- The lane set of a byte, its bits 4 to 7 ignored (R185). -/
def byteLanes (b : Byte) : Lanes := b.setWidth 4

/-- A presence or flag byte: 00h or 01h (R184). -/
def boolByte (b : Bool) : Byte := if b then 1 else 0

/-- Bits as one number, bit n first at position n. -/
def bitsNat : List Bool → Nat
  | [] => 0
  | b :: bs => (if b then 1 else 0) + 2 * bitsNat bs

/-- The flag byte with the given bits, bit 0 first (R184). -/
def flagByte (bits : List Bool) : Byte := BitVec.ofNat 8 (bitsNat bits)

/-! ## The wire: bytes pass most significant bit first (R150) -/

/-- The whole bytes of a run of bits; a partial byte at the end is discarded (R150). -/
def bitsBytes : List Bool → List Byte
  | b7 :: b6 :: b5 :: b4 :: b3 :: b2 :: b1 :: b0 :: rest =>
    flagByte [b0, b1, b2, b3, b4, b5, b6, b7] :: bitsBytes rest
  | _ => []

/-- The bits of one byte in the order of the wire (R150). -/
def byteBits (b : Byte) : List Bool := (List.range 8).map (fun i => b.getLsbD (7 - i))

/-- The bits of a run of bytes in the order of the wire (R150). -/
def bytesBits (bs : List Byte) : List Bool := bs.flatMap byteBits

/-! ## CRC-16 of frames (R186) -/

/-- One place of the CRC-16 register towards its most significant bit (R186). -/
def crc16Shift (r : BitVec 16) : BitVec 16 := if r.msb then (r <<< 1) ^^^ 0x1021#16 else r <<< 1

/-- One byte folded into the CRC-16 register (R186). -/
def crc16Byte (r : BitVec 16) (b : Byte) : BitVec 16 :=
  crc16Shift^[8] (r ^^^ (b.setWidth 16 <<< 8))

/-- The CRC-16 of a run of bytes, from a register of FFFFh, with no final exclusive-or (R186). -/
def crc16 (bs : List Byte) : BitVec 16 := bs.foldl crc16Byte 0xFFFF#16

/-! ## CRC-32 of checksum sweeps (R131) -/

/-- One place of the CRC-32 register towards its least significant bit (R131). -/
def crc32Shift (r : Word) : Word := if r.getLsbD 0 then (r >>> 1) ^^^ 0xEDB88320#32 else r >>> 1

/-- One byte folded into the CRC-32 register (R131). -/
def crc32Byte (r : Word) (b : Byte) : Word := crc32Shift^[8] (r ^^^ b.setWidth 32)

/-- A word's four lanes as bytes, lane 0 first (R131). -/
def laneBytes (w : Word) : List Byte := (List.range 4).map (fun i => w.extractLsb' (8 * i) 8)

/-- The CRC field after more words: the field is the register exclusive-ored with FFFFFFFFh, so the field of no words
is 00000000h (R131, R130). -/
def crc32Fold (field : Word) (words : List Word) : Word :=
  (words.flatMap laneBytes).foldl crc32Byte (field ^^^ 0xFFFFFFFF#32) ^^^ 0xFFFFFFFF#32

/-! ## Lanes of a word (R23) -/

/-- The set of all four lanes. -/
abbrev allLanes : Lanes := 0xF#4

/-- The bits of a word that lie in the lanes of the set. -/
def laneBits (l : Lanes) : Word :=
  (if l.getLsbD 0 then 0x000000FF#32 else 0) ||| (if l.getLsbD 1 then 0x0000FF00#32 else 0) |||
  (if l.getLsbD 2 then 0x00FF0000#32 else 0) ||| (if l.getLsbD 3 then 0xFF000000#32 else 0)

/-- The lanes of the set from `new`, the others from `old` (R46, R53). -/
def mixLanes (l : Lanes) (new old : Word) : Word := (new &&& laneBits l) ||| (old &&& ~~~ laneBits l)

end Sys2Proof.Machine
end

