-- ==== Sys2Proof/Machine/State.lean ====
section
/-! DEFINITION. The state of the BX216, unit by unit, as plain data; the state after reset; what can stop a step. -/

namespace Sys2Proof.Machine

/-! ## Pins -/

/-- The lines of the part (00 section 6). ALERT and LDO follow other state and are computed from it. -/
structure Pins where
  /-- RESET is active (R168). -/
  reset : Bool
  /-- The level of FBYP (R172). -/
  fbyp : Bool
  /-- LSEL is asserted (R150). -/
  lsel : Bool
  /-- Bus clocks left of the MARK pulse; MARK is active while it is not 0 (R82). -/
  markLeft : Nat
  deriving DecidableEq, Repr

/-! ## Control unit (R166) -/

/-- The progress of the start-up clear: running, with the next store offset to write, or complete (R166). -/
inductive ClearProgress where
  | running (next : Nat)
  | complete
  deriving DecidableEq, Repr

/-- The state of the control unit (R166). -/
structure Control where
  part          : PartState
  forced        : Bool
  clear         : ClearProgress
  config        : ConfigSet
  timestamp     : Word
  prescaleCount : Nat
  causes        : CauseSet
  deriving DecidableEq, Repr

/-- The defaults of the configuration set (R175). -/
def defaultConfig : ConfigSet :=
  { prescale := 0, timeout := 256, patience := 8, policy := .drop, holdLimit := 1000, threshold := 48, enable := 0 }

/-! ## Match unit (R1) -/

/-- A hit record (R8). -/
structure HitRecord where
  timestamp : Word
  addr      : Nat
  kind      : Kind
  deriving DecidableEq, Repr

/-- The status of a slot in the active table (R8). -/
structure SlotStatus where
  state         : SlotState
  count         : Nat
  newest        : Option HitRecord
  prior         : Option HitRecord
  hit           : Bool
  lost          : Bool
  handoffMissed : Bool
  storeFault    : Bool
  deriving DecidableEq, Repr

/-- One slot: its staged part and its active part (R1). -/
structure Slot where
  staged : SlotConfig
  dirty  : Bool
  active : SlotConfig
  status : SlotStatus
  deriving DecidableEq, Repr

/-- The reset configuration (R21). -/
def resetConfig : SlotConfig :=
  { mode := .watch, k := 0, base := 0, kinds := 2, offset := 0, lanes := 0xF#4, limit := 0, action := .notify,
    link := 0, capture := false, alert := false, mark := false, initial := .idle }

/-- A status with nothing recorded (R8). -/
def clearedStatus (st : SlotState) : SlotStatus :=
  { state := st, count := 0, newest := none, prior := none, hit := false, lost := false, handoffMissed := false,
    storeFault := false }

/-- A slot after reset (R21). -/
def resetSlot : Slot :=
  { staged := resetConfig, dirty := false, active := resetConfig, status := clearedStatus .idle }

/-- The table after reset: 24 slots (R21). -/
def resetTable : List Slot := List.replicate Config.slotCount resetSlot

/-! ## Patch store (R45) -/

/-- A word of the patch store with its parity state (R45). -/
structure StoreWord where
  data : Word
  bad  : Bool
  deriving DecidableEq, Repr

/-- What an offset that the list does not name reads as: 0 with good parity (R48). -/
def clearedWord : StoreWord := { data := 0, bad := false }

/-- The patch store as (offset, word) pairs, in the canonical form of `Store.wf`. -/
abbrev Store := List (Nat × StoreWord)

/-- Offsets rise strictly from `low`, stay below 4,096, and no entry equals what an unlisted offset reads as. -/
def Store.wfFrom : Nat → Store → Bool
  | _, [] => true
  | low, (a, w) :: rest => low ≤ a && a < Config.storeWords && w != clearedWord && Store.wfFrom (a + 1) rest

/-- The canonical form of the store. -/
abbrev Store.wf (m : Store) : Bool := Store.wfFrom 0 m

/-! ## Forwarding path (R27) -/

/-- What the snapshot keeps of a slot: its active configuration and its state (R28). -/
structure SnapSlot where
  config : SlotConfig
  state  : SlotState
  deriving DecidableEq, Repr

/-- The decision of one word (R32), with the store word fetched for it (R33). -/
structure WordDecision where
  addr      : Nat
  decider   : Option Nat
  observers : List Nat
  fetched   : Option StoreWord
  deriving DecidableEq, Repr

/-- The snapshot and the word decisions of a request governed by ACTIVE (R28). -/
structure Decided where
  snapshot : List SnapSlot
  words    : List WordDecision
  deriving DecidableEq, Repr

/-- The host request in flight: the request, the part state that governs it (R28), and its decision, absent for a
request that is forwarded unchanged (R40). -/
structure Flight where
  request  : BusRequest
  governed : PartState
  decided  : Option Decided
  deriving DecidableEq, Repr

/-- A settled request whose response, fixed at settle, is kept back (R39). -/
structure HeldRequest where
  request  : BusRequest
  response : BusResponse
  deriving DecidableEq, Repr

/-- The four states of the forwarding path (R27). -/
inductive Path where
  | idle
  | waitGrant (flight : Flight)
  | outstanding (flight : Flight)
  | held (held : HeldRequest)
  deriving DecidableEq, Repr

/-- The last-access record (R43). -/
structure LastAccess where
  kind      : Kind
  addr      : Nat
  len       : Nat
  firstWord : Option Word
  okay      : Bool
  timestamp : Word
  deriving DecidableEq, Repr

/-- The forwarding path with the upstream port: the request that the host has presented and that waits for acceptance,
and the response given to the request accepted last. -/
structure Forwarding where
  path       : Path
  lastAccess : Option LastAccess
  presented  : Option BusRequest
  given      : Option BusResponse
  deriving DecidableEq, Repr

/-! ## Downstream port -/

/-- The outstanding downstream request with the timeout taken at its issue, in units of 16 bus clocks, and the bus
clocks since (R35, R118). -/
structure Downstream where
  request : BusRequest
  timeout : Nat
  elapsed : Nat
  deriving DecidableEq, Repr

/-- The downstream port; `aborted` is the abort indication of the request that ended last (R26). -/
structure Port where
  outstanding : Option Downstream
  aborted     : Bool
  deriving DecidableEq, Repr

/-! ## Capture unit (R94) -/

/-- A capture record as it is offered: every field of R92 but sequence and drops before (R95). -/
structure CaptureOffer where
  timestamp : Word
  kind      : Kind
  addr      : Nat
  len       : Nat
  outcome   : RequestOutcome
  patched   : Bool
  shadowed  : Bool
  slots     : List Nat
  keyAddr   : Nat
  keyData   : Option Word
  keyLanes  : Option Lanes
  deriving DecidableEq, Repr

/-- A capture record of the queue (R92). -/
structure CaptureRecord where
  sequence    : Sequence
  offer       : CaptureOffer
  dropsBefore : Nat
  deriving DecidableEq, Repr

/-- The held offer with the ticks its hold timer still has to count (R99). -/
structure HeldOffer where
  offer     : CaptureOffer
  ticksLeft : Nat
  deriving DecidableEq, Repr

/-- The state of the capture unit (R94). -/
structure Capture where
  queue        : List CaptureRecord
  nextSeq      : Sequence
  dropped      : Nat
  pendingDrops : Nat
  held         : Option HeldOffer
  deriving DecidableEq, Repr

/-- The capture unit after reset (R94, R112). -/
def resetCapture : Capture := { queue := [], nextSeq := 0, dropped := 0, pendingDrops := 0, held := none }

/-! ## Downstream arbiter (R113) -/

/-- The state of the downstream arbiter; the waiting set is one flag for each requester (R113). -/
structure Arbiter where
  owner       : Option Requester
  waitForward : Bool
  waitLink    : Bool
  waitSweep   : Bool
  linkPassed  : Nat
  sweepPassed : Nat
  deriving DecidableEq, Repr

/-- The arbiter after power-on reset (R113). -/
def resetArbiter : Arbiter :=
  { owner := none, waitForward := false, waitLink := false, waitSweep := false, linkPassed := 0, sweepPassed := 0 }

/-! ## Link access unit (R120) -/

/-- A word of a view read as fixed at its start: its source, the lanes taken from the store and the store word's data
(R124). -/
structure ViewWord where
  source : ViewSource
  lanes  : Lanes
  data   : Word
  deriving DecidableEq, Repr

/-- The steps of WRITE_VERIFY with the old word that step 1 returned (R126). -/
inductive VerifyStep where
  | read
  | write (old : Word)
  | readBack (old : Word)
  deriving DecidableEq, Repr

/-- The memory command in progress (R120). -/
inductive AccessJob where
  | readRaw (addr count : Nat)
  | readView (addr count : Nat) (view : List ViewWord) (predicted : RequestOutcome)
  | writeRaw (addr : Nat) (words : List WriteWord)
  | writeVerify (addr : Nat) (word : WriteWord) (step : VerifyStep)
  deriving DecidableEq, Repr

/-- The three states of the link access unit (R120). -/
inductive Access where
  | idle
  | waitGrant (job : AccessJob)
  | outstanding (job : AccessJob)
  deriving DecidableEq, Repr

/-! ## Sweep engine (R128) -/

/-- The mismatch fields of a PUSH with verify on (R128). -/
structure Readback where
  mismatches : Nat
  first      : Option Nat
  deriving DecidableEq, Repr

/-- The fields that a sweep's kind has of its own (R128); `verify` is absent for a PUSH with verify off. -/
inductive SweepWork where
  | check (expected : Option Word) (crc : Word) (matched : Option Bool)
  | fill (offset : Nat) (overlap : Bool)
  | push (offset : Nat) (verify : Option Readback)
  deriving DecidableEq, Repr

/-- The record of a sweep (R128). -/
structure SweepRecord where
  start     : Nat
  count     : Nat
  done      : Nat
  outcome   : SweepOutcome
  fail      : Option (FailCause × Nat)
  disturbed : Bool
  work      : SweepWork
  deriving DecidableEq, Repr

/-- The phases of the block in hand: waiting for its first grant; begun, with its first access outstanding; begun, with
its read back waiting; begun, with its read back outstanding (R134, R138). -/
inductive BlockPhase where
  | waiting | access | backWaiting | back
  deriving DecidableEq, Repr

/-- The block in hand; `words` are the store words a PUSH read for it (R134, R137). -/
structure Block where
  addr  : Nat
  count : Nat
  words : List Word
  phase : BlockPhase
  deriving DecidableEq, Repr

/-- The state of the sweep engine; an absent record is kind NONE with outcome NONE (R128). -/
structure SweepEngine where
  state  : SweepState
  record : Option SweepRecord
  block  : Option Block
  deriving DecidableEq, Repr

/-- The sweep engine after reset (R128). -/
def resetSweep : SweepEngine := { state := .idle, record := none, block := none }

/-! ## Link interface (R151) -/

/-- An accepted command in the command queue (R157). -/
structure QueuedCommand where
  seq  : Byte
  code : Nat
  args : List Byte
  deriving DecidableEq, Repr

/-- A response: sequence echo, status, payload (R151). -/
structure Response where
  seq     : Byte
  status  : Status
  payload : List Byte
  deriving DecidableEq, Repr

/-- An entry of the response queue (R151). -/
inductive Entry where
  | reserved (seq : Byte)
  | held (response : Response)
  deriving DecidableEq, Repr

/-- A refusal item (R155). -/
structure RefusalItem where
  seq         : Byte
  status      : Status
  earlierLost : Bool
  deriving DecidableEq, Repr

/-- A reference to an item of the link interface: none (the empty frame), the refusal in the holding, or the oldest held
response (R152, R153). -/
inductive Sent where
  | nothing | refusal | response
  deriving DecidableEq, Repr

/-- The exchange in progress: the item chosen and the frame composed at its beginning, the bits shifted out, and the
bits taken (R150 to R152). -/
structure Exchange where
  chosen  : Sent
  frame   : List Byte
  shifted : Nat
  taken   : List Bool
  deriving DecidableEq, Repr

/-- The commands that are carried out at a request boundary (R29), with their arguments. -/
inductive BoundaryCommand where
  | tableCommit
  | slotState (slot : Nat) (state : SlotState)
  | slotAck (slot : Nat)
  | storeWrite (offset : Nat) (poison : Bool) (words : List Word)
  | engage
  | disengage (force : Bool)
  | softReset
  deriving DecidableEq, Repr

/-- What the executing command waits for (R160): a request boundary, the end of its downstream accesses, the completion
of a begun block by SWEEP_SUSPEND or SWEEP_ABORT, or that completion by a SOFT_RESET past its boundary (R173). -/
inductive Executing where
  | boundary (command : BoundaryCommand)
  | access
  | suspend
  | abort
  | softResetBlock
  deriving DecidableEq, Repr

/-- The state of the link interface (R151). -/
structure LinkInterface where
  commands  : List QueuedCommand
  executing : Option Executing
  responses : List Entry
  refusal   : Option RefusalItem
  lastSent  : Sent
  exchange  : Option Exchange
  deriving DecidableEq, Repr

/-- The link interface after power-on reset (R151). -/
def resetLink : LinkInterface :=
  { commands := [], executing := none, responses := [], refusal := none, lastSent := .nothing, exchange := none }

/-! ## The whole part -/

/-- The state of the BX216, and the queue of the commands that wait for it. -/
structure State where
  pending : List Instr
  pins    : Pins
  control : Control
  table   : List Slot
  store   : Store
  forward : Forwarding
  capture : Capture
  arbiter : Arbiter
  port    : Port
  access  : Access
  sweep   : SweepEngine
  link    : LinkInterface
  deriving DecidableEq, Repr

/-- The control unit after power-on reset (R166). -/
def resetControl : Control :=
  { part := .starting, forced := false, clear := .running 0, config := defaultConfig, timestamp := 0,
    prescaleCount := 0, causes := 0 }

/-- The machine right after the release of RESET (R168): STARTING, with the start-up clear at offset 0. The input lines
and the store's content are DESIGN CHOICES (notes/assumptions/4.md, 5.md). -/
def State.reset : State :=
  { pending := []
    pins := { reset := false, fbyp := false, lsel := false, markLeft := 0 }
    control := resetControl
    table := resetTable
    store := []
    forward := { path := .idle, lastAccess := none, presented := none, given := none }
    capture := resetCapture
    arbiter := resetArbiter
    port := { outstanding := none, aborted := false }
    access := .idle
    sweep := resetSweep
    link := resetLink }

/-- What stops the machine with a fault. -/
inductive Fault where
  /-- Raised by STORE_UPSET naming an offset above 4,095, where the store has no word (R45). Safe: the part has no such
  access. -/
  | noSuchStoreWord
  deriving DecidableEq, Repr

/-- What stops the machine without a meaning. -/
inductive Refusal where
  /-- Raised by exec for a command that has no meaning in the model. Safe. -/
  | notModelled (mnemonic : String)
  /-- Raised by HOST_REQUEST_ACCEPT for a request that the bus cannot carry: an address above 3FFFFFh, no word, or more
  than 8 words (R23). Safe: no such request arrives. -/
  | notABusRequest
  /-- Raised by the three response rows for an OKAY response that does not carry one word for each word read, or that
  carries data for a WRITE (R25). Safe: the memory gives no such response. -/
  | notABusResponse
  deriving DecidableEq, Repr

end Sys2Proof.Machine
end

