-- ==== Sys2Proof/Machine/Payloads.lean ====
section
/-! DEFINITION. What the part sends: the codes of enumerated fields (R184, R187), the records and payloads (R188 to R190), the outbound frame (R187). -/

namespace Sys2Proof.Machine

/-! ## Codes (R184, R187) -/

/-- Status codes (R187). -/
def statusCode : Status → Byte
  | .ok => 0x00
  | .busy => 0x01
  | .conflict => 0x02
  | .range => 0x03
  | .misaligned => 0x04
  | .notFound => 0x05
  | .noSweep => 0x06
  | .starting => 0x07
  | .pinned => 0x08
  | .shadowLive => 0x09
  | .unknown => 0x0A
  | .length => 0x0B
  | .memError => 0x0C
  | .timeout => 0x0D
  | .storeParity => 0x0E
  | .checkFail => 0x80
  | .short => 0x81
  | .oversize => 0x82
  | .full => 0x83
  | .vacant => 0xFF

/-- Part state codes (R184). -/
def partCode : PartState → Byte
  | .starting => 0x00
  | .bypass => 0x01
  | .active => 0x02

/-- Request kind codes (R184). -/
def kindCode : Kind → Byte
  | .read => 0x00
  | .write => 0x01

/-- Mode codes (R184). -/
def modeCode : Mode → Byte
  | .watch => 0x00
  | .patch => 0x01
  | .guard => 0x02
  | .shadow => 0x03

/-- Slot state codes (R184). -/
def slotStateCode : SlotState → Byte
  | .idle => 0x00
  | .armed => 0x01
  | .live => 0x02
  | .spent => 0x03

/-- Limit action codes (R184). -/
def actionCode : LimitAction → Byte
  | .notify => 0x00
  | .retire => 0x01
  | .handoff => 0x02

/-- Outcome codes of capture records and view reads (R184). -/
def outcomeCode : RequestOutcome → Byte
  | .okay => 0x00
  | .refused => 0x01
  | .memError => 0x02
  | .timeout => 0x03
  | .storeFault => 0x04

/-- Policy codes (R184). -/
def policyCode : Policy → Byte
  | .drop => 0x00
  | .hold => 0x01

/-- Sweep state codes (R184). -/
def sweepStateCode : SweepState → Byte
  | .idle => 0x00
  | .running => 0x01
  | .suspended => 0x02

/-- Sweep outcome codes (R184). -/
def sweepOutcomeCode : SweepOutcome → Byte
  | .pending => 0x00
  | .done => 0x01
  | .failed => 0x02
  | .aborted => 0x03

/-- Fail cause codes, which are status codes (R184). -/
def failCauseCode : FailCause → Byte
  | .memError => 0x0C
  | .timeout => 0x0D
  | .storeParity => 0x0E

/-- View source codes (R184). -/
def sourceCode : ViewSource → Byte
  | .memory => 0x00
  | .store => 0x01
  | .storeFault => 0x02
  | .guarded => 0x03

/-- A slot set in 3 bytes: bit n set means slot n (R184). -/
def slotSetBytes (slots : List Nat) : List Byte :=
  natBytes 3 (bitsNat ((List.range Config.slotCount).map (fun i => slots.contains i)))

/-- A cause set in 2 bytes (R184). -/
def causeSetBytes (c : CauseSet) : List Byte := natBytes 2 c.toNat

/-! ## Records (R188 to R190) -/

/-- The configuration set (R188). -/
def configBytes (c : ConfigSet) : List Byte :=
  natBytes 1 c.prescale ++ natBytes 2 c.timeout ++ natBytes 1 c.patience ++ [policyCode c.policy] ++
    natBytes 2 c.holdLimit ++ natBytes 1 c.threshold ++ causeSetBytes c.enable

/-- A slot configuration (R189). -/
def slotConfigBytes (c : SlotConfig) : List Byte :=
  [modeCode c.mode] ++ natBytes 1 c.k ++ natBytes 3 c.base ++ natBytes 1 c.kinds ++ natBytes 2 c.offset ++
    [lanesByte c.lanes] ++ natBytes 2 c.limit ++ [actionCode c.action] ++ natBytes 1 c.link ++
    [flagByte [c.capture, c.alert, c.mark]] ++ [slotStateCode c.initial]

/-- A hit record of 9 bytes, zeros when absent (R189). -/
def hitRecordBytes : Option HitRecord → List Byte
  | none => List.replicate 9 0
  | some h => [0x01] ++ wordBytes h.timestamp ++ natBytes 3 h.addr ++ [kindCode h.kind]

/-- The four flags of a slot's status, bit 0 HIT (R188, R189). -/
def slotFlagByte (st : SlotStatus) : Byte := flagByte [st.hit, st.lost, st.handoffMissed, st.storeFault]

/-- The SLOT_READ payload (R189). -/
def slotReadBytes (x : Slot) : List Byte :=
  slotConfigBytes x.staged ++ [boolByte x.dirty] ++ slotConfigBytes x.active ++ [slotStateCode x.status.state] ++
    natBytes 2 x.status.count ++ [slotFlagByte x.status] ++ hitRecordBytes x.status.newest ++
    hitRecordBytes x.status.prior

/-- A capture record (R190). -/
def captureRecordBytes (r : CaptureRecord) : List Byte :=
  natBytes 2 r.sequence.toNat ++ wordBytes r.offer.timestamp ++ natBytes 3 r.offer.addr ++ natBytes 1 r.offer.len ++
    [kindCode r.offer.kind] ++ [outcomeCode r.offer.outcome] ++
    [flagByte [r.offer.patched, r.offer.shadowed, r.offer.keyData.isSome]] ++ slotSetBytes r.offer.slots ++
    natBytes 3 r.offer.keyAddr ++ wordBytes (r.offer.keyData.getD 0) ++ [lanesByte (r.offer.keyLanes.getD 0)] ++
    natBytes 1 r.dropsBefore

/-- The store offset of a sweep; zero for a CHECK, which has none (R190). -/
def workOffset : SweepWork → Nat
  | .check _ _ _ => 0
  | .fill offset _ => offset
  | .push offset _ => offset

/-- The sweep kind code (R184). -/
def workCode : SweepWork → Byte
  | .check _ _ _ => 0x01
  | .fill _ _ => 0x02
  | .push _ _ => 0x03

/-- The CRC field; zero where the kind has none (R190). -/
def workCrc : SweepWork → Word
  | .check _ crc _ => crc
  | _ => 0

/-- The expected CRC, optional and for a CHECK (R128). -/
def workExpected : SweepWork → Option Word
  | .check expected _ _ => expected
  | _ => none

/-- The match field, optional and for a CHECK (R128). -/
def workMatched : SweepWork → Option Bool
  | .check _ _ matched => matched
  | _ => none

/-- The mismatch fields, for a PUSH with verify on (R128). -/
def workVerify : SweepWork → Option Readback
  | .push _ verify => verify
  | _ => none

/-- The OVERLAP flag, for a FILL (R128). -/
def workOverlap : SweepWork → Bool
  | .fill _ overlap => overlap
  | _ => false

/-- The flag byte of a sweep record (R190). -/
def sweepFlagByte (r : SweepRecord) : Byte :=
  flagByte [(workExpected r.work).isSome, (workMatched r.work).isSome, (workMatched r.work).getD false,
    ((workVerify r.work).bind (·.first)).isSome, r.fail.isSome, (workVerify r.work).isSome, r.disturbed,
    workOverlap r.work]

/-- A sweep record; an absent one is kind NONE with zeros (R190). -/
def sweepRecordBytes : Option SweepRecord → List Byte
  | none => List.replicate 32 0
  | some r =>
    [workCode r.work] ++ [sweepOutcomeCode r.outcome] ++ [sweepFlagByte r] ++ natBytes 3 r.start ++
      natBytes 3 r.count ++ natBytes 2 (workOffset r.work) ++ natBytes 3 r.done ++ wordBytes (workCrc r.work) ++
      wordBytes ((workExpected r.work).getD 0) ++ natBytes 2 ((workVerify r.work).elim 0 (·.mismatches)) ++
      natBytes 3 (((workVerify r.work).bind (·.first)).getD 0) ++
      [r.fail.elim 0 (fun f => failCauseCode f.1)] ++ natBytes 3 (r.fail.elim 0 (fun f => f.2)) ++ [0x00]

/-- The last-access record (R190). -/
def lastAccessBytes : Option LastAccess → List Byte
  | none => List.replicate 16 0
  | some r =>
    [0x01] ++ [kindCode r.kind] ++ natBytes 3 r.addr ++ natBytes 1 r.len ++ [if r.okay then 0x00 else 0x01] ++
      [boolByte r.firstWord.isSome] ++ wordBytes (r.firstWord.getD 0) ++ wordBytes r.timestamp

/-! ## Frames (R187) -/

/-- A run of bytes closed by its CRC-16, most significant byte first (R187). -/
def withCrc (bs : List Byte) : List Byte := bs ++ natBytes 2 (crc16 bs).toNat

/-- An outbound frame (R187): refusal item, earlier refusal lost, empty, alert pending are bits 0 to 3 of its flags. -/
def outboundFrame (echo : Byte) (status : Status) (flags : List Bool) (payload : List Byte) : List Byte :=
  withCrc ([BitVec.ofNat 8 (6 + payload.length), echo, statusCode status, flagByte flags] ++ payload)

end Sys2Proof.Machine
end

