-- ==== Sys2Proof/Machine/Flags.lean ====
section
/-! DEFINITION. The alert causes and the ALERT line (R179, R180), the CAPTURE_LEVEL condition (R110), and the sets of flagged slots (R182). -/

namespace Sys2Proof.Machine

/-- The number of a cause (R179). -/
def causeNumber : Cause → Nat
  | .started => 0
  | .captureLevel => 1
  | .captureLoss => 2
  | .slotHit => 3
  | .slotLimit => 4
  | .slotLost => 5
  | .handoffMissed => 6
  | .storeParity => 7
  | .downError => 8
  | .downTimeout => 9
  | .malformed => 10
  | .sweepEnd => 11
  | .forcedBypass => 12
  | .linkRefusal => 13

/-- The set that holds one cause. -/
def causeBit (c : Cause) : CauseSet := 1#14 <<< causeNumber c

/-- The cause is in the set. -/
def hasCause (set : CauseSet) (c : Cause) : Bool := set.getLsbD (causeNumber c)

/-- The machine with its control unit replaced. -/
def State.withControl (s : State) (c : Control) : State := { s with control := c }

/-- A block raises a cause: it becomes a member of the pending set (R179). -/
def raise (c : Cause) (s : State) : State :=
  s.withControl { s.control with causes := s.control.causes ||| causeBit c }

/-- The level of the capture queue (R94). -/
def level (s : State) : Nat := s.capture.queue.length

/-- The condition of CAPTURE_LEVEL: the level is at least the threshold (R110). -/
def levelCondition (s : State) : Bool := s.control.config.threshold ≤ level s

/-- The condition is evaluated, and the cause raised while it holds (R110). -/
def checkLevel (s : State) : State := if levelCondition s then raise .captureLevel s else s

/-- The ALERT output: some cause is both pending and enabled, and RESET is not active (R180, R168). -/
def State.alert (s : State) : Bool := !s.pins.reset && (s.control.causes &&& s.control.config.enable) != 0

/-- The MARK output: a pulse is under way (R82). -/
def State.mark (s : State) : Bool := s.pins.markLeft != 0

/-- The slots whose status meets a test, ascending (R182). -/
def slotsWith (p : SlotStatus → Bool) (t : List Slot) : List Nat :=
  (List.range Config.slotCount).filter (fun i => p (t.getD i resetSlot).status)

end Sys2Proof.Machine
end

