-- ==== Sys2Proof/Machine/Operands.lean ====
section
/-! DEFINITION. Operands: bus requests and responses, the argument layouts of the link commands in both directions, and the range checks of arguments. -/

namespace Sys2Proof.Machine

/-! ## Bus requests (R23 to R25) -/

/-- The kind of a request (R23). -/
def requestKind : BusRequest → Kind
  | .read _ _ => .read
  | .write _ _ => .write

/-- The first address of a request (R23). -/
def requestAddr : BusRequest → Nat
  | .read a _ => a
  | .write a _ => a

/-- The length of a request in words (R23). -/
def requestLen : BusRequest → Nat
  | .read _ n => n
  | .write _ ws => ws.length

/-- The write words of a request; none for a READ (R23). -/
def requestWords : BusRequest → List WriteWord
  | .read _ _ => []
  | .write _ ws => ws

/-- The word addresses of a request, in order (R23). -/
def requestAddrs (r : BusRequest) : List Nat := (List.range (requestLen r)).map (requestAddr r + ·)

/-- All words of a range of `n` words from `a` lie in one block of 8 (R24). -/
def inOneBlock (a n : Nat) : Bool := a / Config.blockWords == (a + n - 1) / Config.blockWords

/-- A request that breaks the block rule (R24). -/
def malformed (r : BusRequest) : Bool := !inOneBlock (requestAddr r) (requestLen r)

/-- The response is one that the bus carries to the request: one word for each word read, none for a WRITE (R25). -/
def answers (r : BusRequest) : BusResponse → Bool
  | .okay data => data.length == (match r with | .read _ n => n | .write _ _ => 0)
  | .error => true

/-- Some word of the list has a non-empty lane-enable set (R34). -/
def anyLane (ws : List WriteWord) : Bool := ws.any (fun w => w.lanes != 0)

/-! ## Enumerated argument bytes (R184) -/

/-- The mode of a mode byte (R184). -/
def modeOf : Nat → Option Mode
  | 0 => some .watch
  | 1 => some .patch
  | 2 => some .guard
  | 3 => some .shadow
  | _ => none

/-- The limit action of its byte (R184). -/
def actionOf : Nat → Option LimitAction
  | 0 => some .notify
  | 1 => some .retire
  | 2 => some .handoff
  | _ => none

/-- The state that SLOT_STATE or an initial state may name: IDLE, ARMED or LIVE (R11, R17). -/
def namedState : Nat → Option SlotState
  | 0 => some .idle
  | 1 => some .armed
  | 2 => some .live
  | _ => none

/-- The policy of its byte (R184). -/
def policyOf : Nat → Option Policy
  | 0 => some .drop
  | 1 => some .hold
  | _ => none

/-- The value of an on/off flag byte (R184). -/
def onOff : Nat → Option Bool
  | 0 => some false
  | 1 => some true
  | _ => none

/-! ## Range checks of arguments -/

/-- PATCH and SHADOW slots have a store range (R4). -/
def hasStoreRange (m : Mode) : Bool := m == .patch || m == .shadow

/-- The largest window size exponent of a mode (R2). -/
def maxExponent (m : Mode) : Nat := if hasStoreRange m then 12 else 22

/-- The RANGE conditions of R11 for a configuration whose mode and limit action are named. -/
def slotRangeFault (slot : Nat) (m : Mode) (a : LimitAction) (f : SlotFields) : Bool :=
  Config.spaceWords ≤ f.base
  || maxExponent m < f.k
  || (!hasStoreRange m && 2 < f.kinds)
  || (hasStoreRange m && Config.storeWords < f.offset + 2 ^ f.k)
  || (m == .patch && f.lanes == 0)
  || (a == .handoff && f.limit != 0 && (Config.slotCount ≤ f.link || f.link == slot))

/-- SLOT_STAGE's checks: RANGE (R11), then MISALIGNED (R12); otherwise the configuration to be staged. -/
def checkSlotFields (slot : Nat) (f : SlotFields) : Except Status SlotConfig :=
  match modeOf f.mode, actionOf f.action, namedState f.initial with
  | some m, some a, some st =>
    if slotRangeFault slot m a f then .error .range
    else if f.base % 2 ^ f.k != 0 then .error .misaligned
    else .ok { mode := m, k := f.k, base := f.base, kinds := f.kinds, offset := f.offset, lanes := f.lanes,
               limit := f.limit, action := a, link := f.link, capture := f.capture, alert := f.alert, mark := f.mark,
               initial := st }
  | _, _, _ => .error .range

/-- SET_CONFIG's range checks (R175). -/
def checkConfigFields (f : ConfigFields) : Option ConfigSet :=
  match policyOf f.policy with
  | none => none
  | some p =>
    if f.prescale ≤ 255 && 1 ≤ f.timeout && f.timeout ≤ 4095 && f.patience ≤ 255 && 1 ≤ f.holdLimit
        && f.holdLimit ≤ 65535 && 1 ≤ f.threshold && f.threshold ≤ 64 && f.enable < 2 ^ 14 then
      some { prescale := f.prescale, timeout := f.timeout, patience := f.patience, policy := p,
             holdLimit := f.holdLimit, threshold := f.threshold, enable := BitVec.ofNat 14 f.enable }
    else none

/-- A range of 1 to 8 words of the space that obeys the block rule (R121). -/
def accessRange (addr count : Nat) : Bool :=
  addr < Config.spaceWords && 1 ≤ count && count ≤ Config.blockWords && inOneBlock addr count

/-- A range of 1 to 12 words of the store (R50, R51). -/
def storeRange (offset count : Nat) : Bool := 1 ≤ count && count ≤ 12 && offset + count ≤ Config.storeWords

/-- A memory range of at most `most` words inside the space (R131 to R133). -/
def sweepRange (addr count most : Nat) : Bool :=
  addr < Config.spaceWords && 1 ≤ count && count ≤ most && addr + count ≤ Config.spaceWords

/-- Two ranges of store offsets have an offset in common (R4). -/
def overlaps (o₁ n₁ o₂ n₂ : Nat) : Bool := o₁ < o₂ + n₂ && o₂ < o₁ + n₁

/-! ## Argument bytes of the link commands (R188, R189) -/

/-- The slot configuration in its 15 bytes (R189). -/
def slotFieldBytes (f : SlotFields) : List Byte :=
  natBytes 1 f.mode ++ natBytes 1 f.k ++ natBytes 3 f.base ++ natBytes 1 f.kinds ++ natBytes 2 f.offset ++
    [lanesByte f.lanes] ++ natBytes 2 f.limit ++ natBytes 1 f.action ++ natBytes 1 f.link ++
    [flagByte [f.capture, f.alert, f.mark]] ++ natBytes 1 f.initial

/-- The configuration set in its 10 bytes (R188). -/
def configFieldBytes (f : ConfigFields) : List Byte :=
  natBytes 1 f.prescale ++ natBytes 2 f.timeout ++ natBytes 1 f.patience ++ natBytes 1 f.policy ++
    natBytes 2 f.holdLimit ++ natBytes 1 f.threshold ++ natBytes 2 f.enable

/-- A word of WRITE_RAW or WRITE_VERIFY with its lane set: 5 bytes (R188). -/
def writeWordBytes (w : WriteWord) : List Byte := wordBytes w.data ++ [lanesByte w.lanes]

/-- The code of a command (R188). -/
def commandCode : Command → Nat
  | .nop => 0x00
  | .ping _ => 0x01
  | .partStatus => 0x02
  | .engage => 0x03
  | .disengage _ => 0x04
  | .softReset => 0x05
  | .setConfig _ => 0x06
  | .readConfig => 0x07
  | .alertStatus => 0x08
  | .alertAck _ => 0x09
  | .slotStage _ _ => 0x10
  | .slotUnstage _ => 0x11
  | .tableCommit => 0x12
  | .tableDiscard => 0x13
  | .slotRead _ => 0x14
  | .slotState _ _ => 0x15
  | .slotAck _ => 0x16
  | .captureRead _ _ => 0x20
  | .captureAck _ => 0x21
  | .captureFlush => 0x22
  | .captureInfo => 0x23
  | .readRaw _ _ => 0x30
  | .readView _ _ => 0x31
  | .writeRaw _ _ => 0x32
  | .writeVerify _ _ => 0x33
  | .lastAccess => 0x34
  | .storeRead _ _ => 0x38
  | .storeWrite _ _ _ => 0x39
  | .sweepCheck _ _ _ => 0x40
  | .sweepFill _ _ _ => 0x41
  | .sweepPush _ _ _ _ => 0x42
  | .sweepSuspend => 0x43
  | .sweepResume => 0x44
  | .sweepAbort => 0x45
  | .sweepStatus => 0x46

/-- The argument bytes of a command (R188). -/
def commandArgs : Command → List Byte
  | .nop => []
  | .ping echo => echo
  | .partStatus => []
  | .engage => []
  | .disengage force => natBytes 1 force
  | .softReset => []
  | .setConfig f => configFieldBytes f
  | .readConfig => []
  | .alertStatus => []
  | .alertAck causes => natBytes 2 causes
  | .slotStage slot f => natBytes 1 slot ++ slotFieldBytes f
  | .slotUnstage slot => natBytes 1 slot
  | .tableCommit => []
  | .tableDiscard => []
  | .slotRead slot => natBytes 1 slot
  | .slotState slot state => natBytes 1 slot ++ natBytes 1 state
  | .slotAck slot => natBytes 1 slot
  | .captureRead skip count => natBytes 1 skip ++ natBytes 1 count
  | .captureAck sequence => natBytes 2 sequence
  | .captureFlush => []
  | .captureInfo => []
  | .readRaw addr count => natBytes 3 addr ++ natBytes 1 count
  | .readView addr count => natBytes 3 addr ++ natBytes 1 count
  | .writeRaw addr words => natBytes 3 addr ++ natBytes 1 words.length ++ words.flatMap writeWordBytes
  | .writeVerify addr word => natBytes 3 addr ++ writeWordBytes word
  | .lastAccess => []
  | .storeRead offset count => natBytes 2 offset ++ natBytes 1 count
  | .storeWrite offset poison words =>
    natBytes 2 offset ++ natBytes 1 words.length ++ natBytes 1 poison ++ words.flatMap wordBytes
  | .sweepCheck addr count expected =>
    natBytes 3 addr ++ natBytes 3 count ++ (match expected with | some w => wordBytes w | none => [])
  | .sweepFill addr count offset => natBytes 3 addr ++ natBytes 2 count ++ natBytes 2 offset
  | .sweepPush offset count addr verify =>
    natBytes 2 offset ++ natBytes 2 count ++ natBytes 3 addr ++ natBytes 1 verify
  | .sweepSuspend => []
  | .sweepResume => []
  | .sweepAbort => []
  | .sweepStatus => []

/-! ## Reading a command from its code and argument bytes (R159, R188) -/

/-- What the link interface finds at a command's start (R159). -/
inductive Parsed where
  | unknown
  | badLength
  | ok (command : Command)
  deriving DecidableEq, Repr

/-- The number in the `n` bytes from byte `i` of the arguments (R184). -/
def argNat (args : List Byte) (i n : Nat) : Nat := bytesNat ((args.drop i).take n)

/-- The word in the 4 bytes from byte `i` of the arguments (R184). -/
def argWord (args : List Byte) (i : Nat) : Word := bytesWord ((args.drop i).take 4)

/-- The lane set in byte `i` of the arguments (R184). -/
def argLanes (args : List Byte) (i : Nat) : Lanes := byteLanes (args.getD i 0)

/-- Words of 4 bytes each (R188). -/
def argWords : List Byte → List Word
  | a :: b :: c :: d :: rest => bytesWord [a, b, c, d] :: argWords rest
  | _ => []

/-- Words with lane sets, of 5 bytes each (R188). -/
def argWriteWords : List Byte → List WriteWord
  | a :: b :: c :: d :: l :: rest => ⟨bytesWord [a, b, c, d], byteLanes l⟩ :: argWriteWords rest
  | _ => []

/-- The slot configuration in the 15 bytes from byte `i` of the arguments (R189). -/
def argSlotFields (args : List Byte) (i : Nat) : SlotFields :=
  { mode := argNat args i 1, k := argNat args (i + 1) 1, base := argNat args (i + 2) 3,
    kinds := argNat args (i + 5) 1, offset := argNat args (i + 6) 2, lanes := argLanes args (i + 8),
    limit := argNat args (i + 9) 2, action := argNat args (i + 11) 1, link := argNat args (i + 12) 1,
    capture := (args.getD (i + 13) 0).getLsbD 0, alert := (args.getD (i + 13) 0).getLsbD 1,
    mark := (args.getD (i + 13) 0).getLsbD 2, initial := argNat args (i + 14) 1 }

/-- The configuration set in the 10 bytes of SET_CONFIG's arguments (R188). -/
def argConfigFields (args : List Byte) : ConfigFields :=
  { prescale := argNat args 0 1, timeout := argNat args 1 2, patience := argNat args 3 1, policy := argNat args 4 1,
    holdLimit := argNat args 5 2, threshold := argNat args 7 1, enable := argNat args 8 2 }

/-- A command whose arguments have one length (R188). -/
def ofLength (n : Nat) (args : List Byte) (c : Command) : Parsed := if args.length = n then .ok c else .badLength

/-- The command of a code and its argument bytes: UNKNOWN, LENGTH, or the command (R159, R188). -/
def parseCommand (code : Nat) (args : List Byte) : Parsed :=
  match code with
  | 0x00 => ofLength 0 args .nop
  | 0x01 => if args.length ≤ 8 then .ok (.ping args) else .badLength
  | 0x02 => ofLength 0 args .partStatus
  | 0x03 => ofLength 0 args .engage
  | 0x04 => ofLength 1 args (.disengage (argNat args 0 1))
  | 0x05 => ofLength 0 args .softReset
  | 0x06 => ofLength 10 args (.setConfig (argConfigFields args))
  | 0x07 => ofLength 0 args .readConfig
  | 0x08 => ofLength 0 args .alertStatus
  | 0x09 => ofLength 2 args (.alertAck (argNat args 0 2))
  | 0x10 => ofLength 16 args (.slotStage (argNat args 0 1) (argSlotFields args 1))
  | 0x11 => ofLength 1 args (.slotUnstage (argNat args 0 1))
  | 0x12 => ofLength 0 args .tableCommit
  | 0x13 => ofLength 0 args .tableDiscard
  | 0x14 => ofLength 1 args (.slotRead (argNat args 0 1))
  | 0x15 => ofLength 2 args (.slotState (argNat args 0 1) (argNat args 1 1))
  | 0x16 => ofLength 1 args (.slotAck (argNat args 0 1))
  | 0x20 => ofLength 2 args (.captureRead (argNat args 0 1) (argNat args 1 1))
  | 0x21 => ofLength 2 args (.captureAck (argNat args 0 2))
  | 0x22 => ofLength 0 args .captureFlush
  | 0x23 => ofLength 0 args .captureInfo
  | 0x30 => ofLength 4 args (.readRaw (argNat args 0 3) (argNat args 3 1))
  | 0x31 => ofLength 4 args (.readView (argNat args 0 3) (argNat args 3 1))
  | 0x32 => if args.length < 4 then .badLength
            else ofLength (4 + 5 * argNat args 3 1) args (.writeRaw (argNat args 0 3) (argWriteWords (args.drop 4)))
  | 0x33 => ofLength 8 args (.writeVerify (argNat args 0 3) ⟨argWord args 3, argLanes args 7⟩)
  | 0x34 => ofLength 0 args .lastAccess
  | 0x38 => ofLength 3 args (.storeRead (argNat args 0 2) (argNat args 2 1))
  | 0x39 => if args.length < 3 then .badLength
            else ofLength (4 + 4 * argNat args 2 1) args
              (.storeWrite (argNat args 0 2) (argNat args 3 1) (argWords (args.drop 4)))
  | 0x40 => if args.length = 10 then .ok (.sweepCheck (argNat args 0 3) (argNat args 3 3) (some (argWord args 6)))
            else ofLength 6 args (.sweepCheck (argNat args 0 3) (argNat args 3 3) none)
  | 0x41 => ofLength 7 args (.sweepFill (argNat args 0 3) (argNat args 3 2) (argNat args 5 2))
  | 0x42 => ofLength 8 args
              (.sweepPush (argNat args 0 2) (argNat args 2 2) (argNat args 4 3) (argNat args 7 1))
  | 0x43 => ofLength 0 args .sweepSuspend
  | 0x44 => ofLength 0 args .sweepResume
  | 0x45 => ofLength 0 args .sweepAbort
  | 0x46 => ofLength 0 args .sweepStatus
  | _ => .unknown

end Sys2Proof.Machine
end

