-- ==== Sys2Proof/Machine/Ops.lean ====
section
/-! DEFINITION. The named operations over the patch store, the slot table, the sweep record, the part state and the link queues. -/

namespace Sys2Proof.Machine

/-! ## Units replaced -/

/-- The machine with its pins replaced. -/
def State.withPins (s : State) (p : Pins) : State := { s with pins := p }
/-- The machine with its slot table replaced. -/
def State.withTable (s : State) (t : List Slot) : State := { s with table := t }
/-- The machine with its patch store replaced. -/
def State.withStore (s : State) (m : Store) : State := { s with store := m }
/-- The machine with its forwarding path replaced. -/
def State.withForward (s : State) (f : Forwarding) : State := { s with forward := f }
/-- The machine with its capture unit replaced. -/
def State.withCapture (s : State) (c : Capture) : State := { s with capture := c }
/-- The machine with its arbiter replaced. -/
def State.withArbiter (s : State) (a : Arbiter) : State := { s with arbiter := a }
/-- The machine with its downstream port replaced. -/
def State.withPort (s : State) (p : Port) : State := { s with port := p }
/-- The machine with its link access unit replaced. -/
def State.withAccess (s : State) (a : Access) : State := { s with access := a }
/-- The machine with its sweep engine replaced. -/
def State.withSweep (s : State) (e : SweepEngine) : State := { s with sweep := e }
/-- The machine with its link interface replaced. -/
def State.withLink (s : State) (l : LinkInterface) : State := { s with link := l }

/-! ## Patch store (R45, R46) -/

/-- The store word at an offset (R45); an offset that the list does not name reads 0 with good parity (R48). -/
def storeRead : Store → Nat → StoreWord
  | [], _ => clearedWord
  | (b, w) :: rest, a => if a = b then w else storeRead rest a

/-- The list with the word at an offset set, in canonical form. -/
def storeInsert : Store → Nat → StoreWord → Store
  | [], a, w => if w = clearedWord then [] else [(a, w)]
  | (b, v) :: rest, a, w =>
    if a < b then (if w = clearedWord then (b, v) :: rest else (a, w) :: (b, v) :: rest)
    else if a = b then (if w = clearedWord then rest else (a, w) :: rest)
    else (b, v) :: storeInsert rest a w

/-- A store word set whole, data and parity state together (R45); the store has no word above offset 4,095. -/
def storePut (m : Store) (a : Nat) (w : StoreWord) : Store := if a < Config.storeWords then storeInsert m a w else m

/-- A store write of a set of lanes: the others keep their bits, the parity becomes good; an empty set changes nothing
(R46). -/
def storeWriteLanes (m : Store) (a : Nat) (l : Lanes) (data : Word) : Store :=
  if l = 0 then m else storePut m a { data := mixLanes l data (storeRead m a).data, bad := false }

/-- Words written whole to ascending offsets with the given parity state (R46, R52, R136). -/
def storeWriteWords (bad : Bool) : Store → Nat → List Word → Store
  | m, _, [] => m
  | m, a, w :: ws => storeWriteWords bad (storePut m a { data := w, bad := bad }) (a + 1) ws

/-- The store words of a range, ascending (R50, R137). -/
def storeReadRange (m : Store) (a n : Nat) : List StoreWord := (List.range n).map (fun i => storeRead m (a + i))

/-! ## Slot table (R1) -/

/-- The slot of a number. -/
def slotAt (t : List Slot) (i : Nat) : Slot := t.getD i resetSlot

/-- The slot of a number in the machine's table. -/
def State.slot (s : State) (i : Nat) : Slot := slotAt s.table i

/-- The table with one slot replaced. -/
def State.setSlot (s : State) (i : Nat) (x : Slot) : State := s.withTable (s.table.set i x)

/-- The table with one slot's status replaced. -/
def State.setStatus (s : State) (i : Nat) (st : SlotStatus) : State := s.setSlot i { s.slot i with status := st }

/-- The number of words of a slot's window, and of its store range (R2, R4). -/
def windowWords (c : SlotConfig) : Nat := 2 ^ c.k

/-- The address lies in the slot's window (R2). -/
def inWindow (c : SlotConfig) (a : Nat) : Bool := c.base ≤ a && a < c.base + windowWords c

/-- The store offset that a slot's store range maps a window address to (R4). -/
def storeIndex (c : SlotConfig) (a : Nat) : Nat := c.offset + a - c.base

/-- A PATCH or SHADOW slot whose store range overlaps a range of offsets (R4). -/
def rangeMeets (c : SlotConfig) (offset count : Nat) : Bool :=
  hasStoreRange c.mode && overlaps c.offset (windowWords c) offset count

/-- The dirty slots, ascending (R1). -/
def dirtySlots (t : List Slot) : List Nat := (List.range Config.slotCount).filter (fun i => (slotAt t i).dirty)

/-- The lowest-numbered slot that is LIVE with mode SHADOW (R171). -/
def liveShadow (t : List Slot) : Option Nat :=
  (List.range Config.slotCount).find? (fun i => (slotAt t i).active.mode == .shadow && (slotAt t i).status.state == .live)

/-! ## Part state (R172) -/

/-- The forcing of BYPASS, as one change (R172). -/
def forceBypass (s : State) : State :=
  raise .forcedBypass (s.withControl { s.control with part := .bypass, forced := true })

/-- At a moment at which FBYP is acted on: an active FBYP moves an ACTIVE part to BYPASS (R30, R172). -/
def sampleFbyp (s : State) : State := if s.pins.fbyp && s.control.part == .active then forceBypass s else s

/-! ## Sweep record (R128) and the reports that reach the engine (R145, R146) -/

/-- The engine's record changed. -/
def updateRecord (f : SweepRecord → SweepRecord) (s : State) : State :=
  s.withSweep { s.sweep with record := s.sweep.record.map f }

/-- The record of the sweep that is RUNNING or SUSPENDED (R128). -/
def liveSweep (e : SweepEngine) : Option SweepRecord := if e.state = .idle then none else e.record

/-- The destination range of a FILL that is RUNNING or SUSPENDED: offset and count (R128, R15). -/
def fillDestination (e : SweepEngine) : Option (Nat × Nat) :=
  match liveSweep e with
  | some r => match r.work with
    | .fill offset _ => some (offset, r.count)
    | _ => none
  | none => none

/-- The source range of a PUSH that is RUNNING or SUSPENDED: offset and count (R128, R145). -/
def pushSource (e : SweepEngine) : Option (Nat × Nat) :=
  match liveSweep e with
  | some r => match r.work with
    | .push offset _ => some (offset, r.count)
    | _ => none
  | none => none

/-- Some word of a write from `addr` lies in the memory range with a non-empty lane set (R145). -/
def touches (addr : Nat) (ws : List WriteWord) (start count : Nat) : Bool :=
  ws.zipIdx.any (fun p => p.1.lanes != 0 && start ≤ addr + p.2 && addr + p.2 < start + count)

/-- A downstream write other than the sweep's own is reported to the sweep engine (R119, R145). -/
def reportWrite (addr : Nat) (ws : List WriteWord) (s : State) : State :=
  match liveSweep s.sweep with
  | some r => if touches addr ws r.start r.count then updateRecord (fun r => { r with disturbed := true }) s else s
  | none => s

/-- A shadow write of the lanes at a store offset is reported to the sweep engine (R70, R145). -/
def reportShadowWrite (offset : Nat) (l : Lanes) (s : State) : State :=
  match pushSource s.sweep with
  | some (o, n) =>
    if l != 0 && o ≤ offset && offset < o + n then updateRecord (fun r => { r with disturbed := true }) s else s
  | none => s

/-- OVERLAP set in a FILL's record (R146). -/
def setOverlap (r : SweepRecord) : SweepRecord :=
  match r.work with
  | .fill offset _ => { r with work := .fill offset true }
  | _ => r

/-- A hand-off that made a slot LIVE is reported to the sweep engine (R89, R146). -/
def reportHandoff (c : SlotConfig) (s : State) : State :=
  match fillDestination s.sweep with
  | some (o, n) => if rangeMeets c o n then updateRecord setOverlap s else s
  | none => s

/-! ## Link queues (R151) -/

/-- The reserved entry becomes held with its response (R160). -/
def fillReserved (r : Response) : List Entry → List Entry
  | [] => []
  | .reserved _ :: rest => .held r :: rest
  | e :: rest => e :: fillReserved r rest

/-- A command completes: its reserved entry becomes held with the response and the command's sequence number, and the
command leaves the command queue (R160). -/
def complete (status : Status) (payload : List Byte) (s : State) : State :=
  match s.link.commands with
  | [] => s
  | q :: rest =>
    s.withLink { s.link with
      commands := rest
      executing := none
      responses := fillReserved ⟨q.seq, status, payload⟩ s.link.responses }

/-- The command that executes waits for something (R160). -/
def await (e : Executing) (s : State) : State := s.withLink { s.link with executing := some e }

/-- A command waits for a request boundary, or a SOFT_RESET past its boundary waits for a block (R29, R173). -/
def boundaryWaits (s : State) : Bool :=
  match s.link.executing with
  | some (.boundary _) => true
  | some .softResetBlock => true
  | _ => false

/-- Most commands are answered STARTING while the part is STARTING and change nothing (R159, R167). -/
def unlessStarting (f : State → State) (s : State) : State :=
  if s.control.part = .starting then complete .starting [] s else f s

/-- An item of the kind leaves the link interface: a reference to it, as the item last sent or as the item that the
present exchange carries, becomes none (R153). -/
def dropReference (k : Sent) (l : LinkInterface) : LinkInterface :=
  { l with
    lastSent := if l.lastSent = k then .nothing else l.lastSent
    exchange := l.exchange.map (fun x => { x with chosen := if x.chosen = k then .nothing else x.chosen }) }

/-- A refused frame: its refusal item takes the holding, over any item there, which leaves the link interface;
LINK_REFUSAL is raised (R155). -/
def refuse (seq : Byte) (status : Status) (s : State) : State :=
  raise .linkRefusal (s.withLink { dropReference .refusal s.link with
    refusal := some ⟨seq, status, s.link.refusal.isSome⟩ })

/-- An accepted frame's command joins the command queue at its tail (R157). -/
def enqueue (q : QueuedCommand) (s : State) : State :=
  s.withLink { s.link with commands := s.link.commands ++ [q] }

/-- The command queue is full: a frame is refused FULL (R154). -/
def queueFull (s : State) : Bool := Config.linkDepth ≤ s.link.commands.length

/-- The head command may start: no command executes, and the response queue has a free entry (R158). -/
def mayStart (s : State) : Bool :=
  !s.pins.reset && !s.link.commands.isEmpty && s.link.executing.isNone && s.link.responses.length < Config.linkDepth

/-- At its start an entry is reserved for the command at the tail of the response queue (R158). -/
def reserve (seq : Byte) (s : State) : State :=
  s.withLink { s.link with responses := s.link.responses ++ [.reserved seq] }

end Sys2Proof.Machine
end

