-- ==== Sys2Proof/Machine/Decision.lean ====
section
/-! DEFINITION. The word decision against a snapshot (R28, R31, R32), the store fetch (R33), the composition of read data (R53), the downstream request of a host request (R33, R34, R40). -/

namespace Sys2Proof.Machine

/-! ## Snapshot and matching -/

/-- The snapshot: the active configuration and the state of each slot (R28). -/
def takeSnapshot (t : List Slot) : List SnapSlot := t.map (fun x => { config := x.active, state := x.status.state })

/-- The snapshot's entry of a slot. -/
def snapAt (snap : List SnapSlot) (i : Nat) : SnapSlot := snap.getD i { config := resetConfig, state := .idle }

/-- The slot applies to the kind of request: WATCH and GUARD by their kinds field, PATCH to READ, SHADOW to both
(R3, R31). -/
def appliesTo (c : SlotConfig) (k : Kind) : Bool :=
  match c.mode with
  | .watch | .guard => match k with
    | .read => c.kinds == 0 || c.kinds == 2
    | .write => c.kinds == 1 || c.kinds == 2
  | .patch => k == .read
  | .shadow => true

/-- A slot matches a word: it is LIVE, its window holds the address, and it applies to the kind (R31). -/
def matchesWord (v : SnapSlot) (k : Kind) (a : Nat) : Bool := v.state == .live && inWindow v.config a && appliesTo v.config k

/-- PATCH, GUARD and SHADOW slots are action slots (R2). -/
def isAction (m : Mode) : Bool := m != .watch

/-- The deciding slot of a word: the lowest-numbered matching action slot (R32). -/
def decidingSlot (snap : List SnapSlot) (k : Kind) (a : Nat) : Option Nat :=
  (List.range Config.slotCount).find? (fun i => isAction (snapAt snap i).config.mode && matchesWord (snapAt snap i) k a)

/-- The observers of a word: the matching WATCH slots (R32). -/
def observingSlots (snap : List SnapSlot) (k : Kind) (a : Nat) : List Nat :=
  (List.range Config.slotCount).filter (fun i => !isAction (snapAt snap i).config.mode && matchesWord (snapAt snap i) k a)

/-- The decision of one word, before any store fetch (R32). -/
def decideWord (snap : List SnapSlot) (k : Kind) (a : Nat) : WordDecision :=
  { addr := a, decider := decidingSlot snap k a, observers := observingSlots snap k a, fetched := none }

/-- The decision of every word of a run of addresses (R32). -/
def decideWords (snap : List SnapSlot) (k : Kind) (addrs : List Nat) : List WordDecision := addrs.map (decideWord snap k)

/-- The configuration of a word's deciding slot in the snapshot. -/
def deciderConfig (snap : List SnapSlot) (d : WordDecision) : Option SlotConfig := d.decider.map (fun i => (snapAt snap i).config)

/-- The word is decided by a slot of the mode. -/
def decidedBy (snap : List SnapSlot) (m : Mode) (d : WordDecision) : Bool := (deciderConfig snap d).any (fun c => c.mode == m)

/-- The slot decided or observed the word (R32). -/
def takesPart (i : Nat) (d : WordDecision) : Bool := d.decider == some i || d.observers.contains i

/-- The hit set with each slot's first matched address, ascending by slot (R32). -/
def hitSet (ds : List WordDecision) : List (Nat × Nat) :=
  (List.range Config.slotCount).filterMap (fun i => (ds.find? (takesPart i)).map (fun d => (i, d.addr)))

/-! ## Store fetch -/

/-- The store word of a word decided by PATCH or SHADOW is fetched with its parity state (R33). -/
def fetchWord (m : Store) (snap : List SnapSlot) (d : WordDecision) : WordDecision :=
  match deciderConfig snap d with
  | some c => if hasStoreRange c.mode then { d with fetched := some (storeRead m (storeIndex c d.addr)) } else d
  | none => d

/-- The word's fetched store word has bad parity (R47). -/
def faulted (d : WordDecision) : Bool := d.fetched.any (·.bad)

/-- A word of a READ needs memory data: undecided, a PATCH mask of fewer than four lanes, or a faulted PATCH word (R33). -/
def needsMemory (snap : List SnapSlot) (d : WordDecision) : Bool :=
  match deciderConfig snap d with
  | none => true
  | some c => c.mode == .patch && (c.lanes != allLanes || faulted d)

/-! ## Composition of read data -/

/-- A word of the response: lanes from the fetched store word, lanes from memory (R53). -/
def composeWord (snap : List SnapSlot) (d : WordDecision) (mem : Word) : Word :=
  match deciderConfig snap d, d.fetched with
  | some c, some w =>
    if w.bad then mem
    else match c.mode with
      | .patch => mixLanes c.lanes w.data mem
      | .shadow => w.data
      | _ => mem
  | _, _ => mem

/-- The words of an OKAY response to a READ (R53). A request that made no downstream read takes no lane from memory, so
the words that are missing from `mem` are never seen. -/
def composeRead (d : Decided) (mem : List Word) : List Word :=
  d.words.zipIdx.map (fun p => composeWord d.snapshot p.1 (mem.getD p.2 0))

/-- The OKAY response to a host request in ACTIVE (R25, R37). -/
def okayResponse (r : BusRequest) (d : Decided) (mem : List Word) : BusResponse :=
  match r with
  | .read _ _ => .okay (composeRead d mem)
  | .write _ _ => .okay []

/-! ## The downstream request -/

/-- The words of the downstream write: the lane-enable set of every shadowed word is made empty (R34, R64). -/
def passedWords (d : Decided) (ws : List WriteWord) : List WriteWord :=
  ws.zipIdx.map (fun p =>
    if (d.words[p.2]?).any (decidedBy d.snapshot .shadow) then { p.1 with lanes := 0 } else p.1)

/-- The downstream request of a request in flight: the request itself when it is forwarded or a READ (R33, R40), the
formed write otherwise (R34). -/
def downstreamRequest (f : Flight) : BusRequest :=
  match f.request, f.decided with
  | .write a ws, some d => .write a (passedWords d ws)
  | r, _ => r

end Sys2Proof.Machine
end

