-- ==== Sys2Proof/Machine/Arbiter.lean ====
section
/-! DEFINITION. The downstream arbiter and the issue of downstream requests (R113 to R119). -/

namespace Sys2Proof.Machine

/-! ## Issue -/

/-- A downstream request is issued; it takes the downstream timeout of the configuration set as it stands (R35, R118). -/
def issue (r : BusRequest) (s : State) : State :=
  s.withPort { s.port with outstanding := some { request := r, timeout := s.control.config.timeout, elapsed := 0 } }

/-- A request other than the sweep's own is issued; a WRITE is reported to the sweep engine (R119). -/
def issueReported (r : BusRequest) (s : State) : State :=
  match r with
  | .read _ _ => issue r s
  | .write a ws => reportWrite a ws (issue r s)

/-- The downstream request of the present step of a memory command (R122 to R126). -/
def jobRequest : AccessJob → BusRequest
  | .readRaw a n => .read a n
  | .readView a n _ _ => .read a n
  | .writeRaw a ws => .write a ws
  | .writeVerify a _ .read => .read a 1
  | .writeVerify a w (.write _) => .write a [w]
  | .writeVerify a _ (.readBack _) => .read a 1

/-- A PUSH block is written with all four lanes of every word (R138). -/
def fullWords (ws : List Word) : List WriteWord := ws.map (fun w => { data := w, lanes := allLanes })

/-- The first access of a block: a READ for CHECK and FILL, a WRITE for PUSH (R135, R136, R138). -/
def blockRequest (work : SweepWork) (b : Block) : BusRequest :=
  match work with
  | .push _ _ => .write b.addr (fullWords b.words)
  | _ => .read b.addr b.count

/-- The forwarding path is granted: the request in flight is issued (R33, R34, R40). -/
def issueForward (s : State) : State :=
  match s.forward.path with
  | .waitGrant f => issueReported (downstreamRequest f) (s.withForward { s.forward with path := .outstanding f })
  | _ => s

/-- The link access unit is granted: the access of its command is issued (R120). -/
def issueLink (s : State) : State :=
  match s.access with
  | .waitGrant job => issueReported (jobRequest job) (s.withAccess (.outstanding job))
  | _ => s

/-- The sweep engine is granted: the first access of the block in hand, or its read back, is issued (R134, R138). -/
def issueSweep (s : State) : State :=
  match s.sweep.record, s.sweep.block with
  | some r, some b => match b.phase with
    | .waiting => issue (blockRequest r.work b) (s.withSweep { s.sweep with block := some { b with phase := .access } })
    | .backWaiting => issue (.read b.addr b.count) (s.withSweep { s.sweep with block := some { b with phase := .back } })
    | _ => s
  | _, _ => s

/-! ## Grants -/

/-- The requester is in the waiting set (R113). -/
def waits (a : Arbiter) : Requester → Bool
  | .forward => a.waitForward
  | .link => a.waitLink
  | .sweep => a.waitSweep

/-- The requester joins the waiting set (R114). -/
def joinWaiting (r : Requester) (a : Arbiter) : Arbiter :=
  match r with
  | .forward => { a with waitForward := true }
  | .link => { a with waitLink := true }
  | .sweep => { a with waitSweep := true }

/-- The requester becomes the port owner, leaves the waiting set, and has its count set to 0 (R114, R116). -/
def grantedTo (r : Requester) (a : Arbiter) : Arbiter :=
  match r with
  | .forward => { a with owner := some .forward, waitForward := false }
  | .link => { a with owner := some .link, waitLink := false, linkPassed := 0 }
  | .sweep => { a with owner := some .sweep, waitSweep := false, sweepPassed := 0 }

/-- A passed-over count raised by one, saturating at 255 (R116). -/
def raiseCount (n : Nat) : Nat := min (n + 1) 255

/-- At a decision for `r`, LINK and SWEEP have their counts raised where they wait and are not granted (R116). -/
def passOver (r : Requester) (a : Arbiter) : Arbiter :=
  { a with
    linkPassed := if a.waitLink && r != .link then raiseCount a.linkPassed else a.linkPassed
    sweepPassed := if a.waitSweep && r != .sweep then raiseCount a.sweepPassed else a.sweepPassed }

/-- The choice of a grant decision with patience `p` (R115). -/
def chooseRequester (p : Nat) (a : Arbiter) : Option Requester :=
  if p ≠ 0 ∧ a.waitLink = true ∧ p ≤ a.linkPassed then some .link
  else if p ≠ 0 ∧ a.waitSweep = true ∧ p ≤ a.sweepPassed then some .sweep
  else if a.waitForward = true then some .forward
  else if a.waitLink = true then some .link
  else if a.waitSweep = true then some .sweep
  else none

/-- The requester is granted the port and issues its request (R114). -/
def grant (r : Requester) (s : State) : State :=
  match r with
  | .forward => issueForward (s.withArbiter (grantedTo .forward s.arbiter))
  | .link => issueLink (s.withArbiter (grantedTo .link s.arbiter))
  | .sweep => issueSweep (s.withArbiter (grantedTo .sweep s.arbiter))

/-- The port is free and nobody waits for it (R114). -/
def portIdle (a : Arbiter) : Bool := a.owner.isNone && !a.waitForward && !a.waitLink && !a.waitSweep

/-- A requester presents a request: granted at once at an idle port, otherwise it joins the waiting set (R114). -/
def present (r : Requester) (s : State) : State :=
  if portIdle s.arbiter then grant r s else s.withArbiter (joinWaiting r s.arbiter)

/-- The grant decision that follows the freeing of the port (R114 to R116). -/
def decideGrant (s : State) : State :=
  match chooseRequester s.control.config.patience s.arbiter with
  | some r => grant r (s.withArbiter (passOver r s.arbiter))
  | none => s

/-- The owner's downstream request has ended, by abort or by its response: the port is freed and a grant decision follows
(R26, R117). -/
def freePort (byAbort : Bool) (s : State) : State :=
  decideGrant ((s.withPort { outstanding := none, aborted := byAbort }).withArbiter { s.arbiter with owner := none })

end Sys2Proof.Machine
end

