-- ==== Sys2Proof/Machine/Capture.lean ====
section
/-! DEFINITION. The capture unit's operations (R96, R98, R106) and the giving of host responses (R39, R43), with the ends of a hold (R100 to R102). -/

namespace Sys2Proof.Machine

/-! ## Queue -/

/-- Admission of a record (R96). -/
def admitRecord (o : CaptureOffer) (s : State) : State :=
  checkLevel (s.withCapture { s.capture with
    queue := s.capture.queue ++ [{ sequence := s.capture.nextSeq, offer := o, dropsBefore := s.capture.pendingDrops }]
    nextSeq := s.capture.nextSeq + 1
    pendingDrops := 0 })

/-- A record is dropped: both drop counts rise, saturating, and CAPTURE_LOSS is raised (R98, R111). -/
def dropRecord (s : State) : State :=
  raise .captureLoss (s.withCapture { s.capture with
    dropped := min (s.capture.dropped + 1) 65535
    pendingDrops := min (s.capture.pendingDrops + 1) 255 })

/-- The `n` oldest records leave the queue (R106, R108). -/
def removeOldest (n : Nat) (s : State) : State :=
  checkLevel (s.withCapture { s.capture with queue := s.capture.queue.drop n })

/-- How many records an acknowledgement of a sequence number removes: the named record and all older ones, absent when no
record has the number (R106). -/
def ackCount (n : Sequence) (q : List CaptureRecord) : Option Nat :=
  (q.findIdx? (fun r => r.sequence == n)).map (· + 1)

/-- The held offer becomes absent and its timer stops (R100, R101). -/
def clearHeld (s : State) : State := s.withCapture { s.capture with held := none }

/-! ## Host responses -/

/-- The first-word data of a last-access record (R43). -/
def firstWord (r : BusRequest) (resp : BusResponse) : Option Word :=
  match r, resp with
  | .write _ ws, _ => ws.head?.map (·.data)
  | .read _ _, .okay data => data.head?
  | .read _ _, .error => none

/-- The last-access record of a response (R43). -/
def lastAccessOf (r : BusRequest) (resp : BusResponse) (ts : Word) : LastAccess :=
  { kind := requestKind r, addr := requestAddr r, len := requestLen r, firstWord := firstWord r resp,
    okay := (match resp with | .okay _ => true | .error => false), timestamp := ts }

/-- A response is given to the host: the last-access record is written, the path returns to IDLE, and an active FBYP acts
on an ACTIVE part (R39, R43, R30). -/
def giveResponse (r : BusRequest) (resp : BusResponse) (s : State) : State :=
  sampleFbyp (s.withForward { s.forward with
    path := .idle
    lastAccess := some (lastAccessOf r resp s.control.timestamp)
    given := some resp })

/-! ## Ends of a hold -/

/-- A hold ends by space: the held offer is admitted and the held response given (R100). -/
def endHoldBySpace (s : State) : State :=
  match s.forward.path, s.capture.held with
  | .held h, some o => giveResponse h.request h.response (admitRecord o.offer (clearHeld s))
  | _, _ => s

/-- A hold ends by expiry or by soft reset: the held offer is dropped and the held response given (R101, R102). -/
def endHoldByDrop (s : State) : State :=
  match s.forward.path with
  | .held h => giveResponse h.request h.response (dropRecord (clearHeld s))
  | _ => s

end Sys2Proof.Machine
end

