-- ==== Sys2Proof/Machine/Settle.lean ====
section
/-! DEFINITION. The settle of a host request: hit accounting, limits and hand-off (R76 to R89), store faults (R57 to R59), shadow writes (R66), the capture offer (R92 to R99). -/

namespace Sys2Proof.Machine

/-! ## Counting set -/

/-- The mode of a slot in the snapshot. -/
def snapMode (d : Decided) (i : Nat) : Mode := (snapAt d.snapshot i).config.mode

/-- The slots that count a hit, with their first matched addresses, ascending: the hit set, less the SHADOW slots of a
WRITE refused by GUARD (R63, R76). -/
def countingSet (k : Kind) (o : RequestOutcome) (d : Decided) : List (Nat × Nat) :=
  if k = .write ∧ o = .refused then (hitSet d.words).filter (fun p => snapMode d p.1 != .shadow) else hitSet d.words

/-! ## The trace of a hit -/

/-- The hit count, the hit records and the HIT and LOST flags after a hit (R78 to R80). -/
def countHit (k : Kind) (ts : Word) (a : Nat) (st : SlotStatus) : SlotStatus :=
  { st with
    count := min (st.count + 1) 65535
    prior := st.newest
    newest := some { timestamp := ts, addr := a, kind := k }
    lost := st.lost || st.hit
    hit := true }

/-- A MARK pulse begins, or begins anew (R82). -/
def pulseMark (s : State) : State := s.withPins { s.pins with markLeft := Config.markClocks }

/-- The hand-off to the target: an ARMED target becomes LIVE with count 0 and a PATCH or SHADOW target's store range is
reported; otherwise the hand-off is missed (R86, R87, R89). -/
def handOff (i target : Nat) (s : State) : State :=
  if (s.slot target).status.state = .armed then
    reportHandoff (s.slot target).active
      (s.setStatus target { (s.slot target).status with state := .live, count := 0 })
  else
    raise .handoffMissed (s.setStatus i { (s.slot i).status with handoffMissed := true })

/-- A slot becomes SPENT, its status otherwise kept (R85, R57). -/
def spend (i : Nat) (s : State) : State := s.setStatus i { (s.slot i).status with state := .spent }

/-- The limit action of a slot that has reached its limit (R84 to R87). -/
def limitAction (i : Nat) (s : State) : State :=
  match (s.slot i).active.action with
  | .notify => s
  | .retire => spend i s
  | .handoff => handOff i (s.slot i).active.link (spend i s)

/-- The limit is reached: it is nonzero and this hit raised the count from one below it (R83). -/
def reachesLimit (x : Slot) : Bool := x.active.limit != 0 && x.status.count + 1 == x.active.limit

/-- SLOT_LOST, raised at a hit that finds HIT set (R80). -/
def noteLost (x : SlotStatus) (s : State) : State := if x.hit then raise .slotLost s else s

/-- SLOT_HIT, raised at a hit of a slot with its alert flag on (R81). -/
def noteAlert (c : SlotConfig) (s : State) : State := if c.alert then raise .slotHit s else s

/-- The MARK pulse of a slot with its mark flag on (R82). -/
def noteMark (c : SlotConfig) (s : State) : State := if c.mark then pulseMark s else s

/-- SLOT_LIMIT and the limit action, where this hit reaches the limit (R83). -/
def noteLimit (i : Nat) (x : Slot) (s : State) : State :=
  if reachesLimit x then limitAction i (raise .slotLimit s) else s

/-- The steps of R78 to R83 for one counting slot, `x` being the slot as the hit finds it. -/
def accountHitOf (k : Kind) (ts : Word) (i a : Nat) (x : Slot) (s : State) : State :=
  noteLimit i x (noteMark x.active (noteAlert x.active
    ((noteLost x.status s).setStatus i (countHit k ts a x.status))))

/-- The steps of R78 to R83 for one counting slot. -/
def accountHit (k : Kind) (ts : Word) (i a : Nat) (s : State) : State := accountHitOf k ts i a (s.slot i) s

/-! ## Store faults -/

/-- A word that the slot decided had a bad store word (R47). -/
def slotFaulted (d : Decided) (i : Nat) : Bool := d.words.any (fun w => w.decider == some i && faulted w)

/-- STORE_FAULT set and STORE_PARITY raised (R57, R58). -/
def flagFault (i : Nat) (s : State) : State :=
  raise .storeParity (s.setStatus i { (s.slot i).status with storeFault := true })

/-- The store-fault effects for one slot: the flag and the cause, and a PATCH slot made SPENT (R57, R58). -/
def accountFault (d : Decided) (i : Nat) (s : State) : State :=
  if slotFaulted d i then (if snapMode d i = .patch then spend i (flagFault i s) else flagFault i s) else s

/-- The match unit's part of a settle: the counting slots one at a time, in ascending order (R77, R59). -/
def accountSlots (k : Kind) (ts : Word) (d : Decided) : List (Nat × Nat) → State → State
  | [], s => s
  | (i, a) :: rest, s => accountSlots k ts d rest (accountFault d i (accountHit k ts i a s))

/-! ## Shadow writes -/

/-- The shadowed words of a write go to the store in ascending address order; each is reported to the sweep engine
(R66, R70). -/
def shadowWrites (snap : List SnapSlot) : List (WordDecision × WriteWord) → State → State
  | [], s => s
  | (d, w) :: rest, s =>
    match deciderConfig snap d with
    | some c =>
      if c.mode = .shadow then
        shadowWrites snap rest
          (reportShadowWrite (storeIndex c d.addr) w.lanes
            (s.withStore (storeWriteLanes s.store (storeIndex c d.addr) w.lanes w.data)))
      else shadowWrites snap rest s
    | none => shadowWrites snap rest s

/-- The store's part of a settle: the shadow writes of a WRITE that ended OKAY (R38, R66). -/
def settleStore (r : BusRequest) (o : RequestOutcome) (d : Decided) (s : State) : State :=
  if o = .okay then shadowWrites d.snapshot (d.words.zip (requestWords r)) s else s

/-! ## Capture offer -/

/-- The lowest of a list of addresses (R93). -/
def lowest : List Nat → Nat
  | [] => 0
  | a :: rest => rest.foldl min a

/-- The word of a response at a position. -/
def responseWord (resp : BusResponse) (n : Nat) : Option Word :=
  match resp with
  | .okay data => data[n]?
  | .error => none

/-- The record offered for a settled request, with the listed slots and their first matched addresses (R92, R93). -/
def captureOffer (r : BusRequest) (o : RequestOutcome) (d : Decided) (resp : BusResponse) (ts : Word)
    (listed : List (Nat × Nat)) : CaptureOffer :=
  let key := lowest (listed.map (·.2))
  let word := (requestWords r)[key - requestAddr r]?
  { timestamp := ts
    kind := requestKind r
    addr := requestAddr r
    len := requestLen r
    outcome := o
    patched := requestKind r == .read && d.words.any (fun w => decidedBy d.snapshot .patch w && w.fetched.any (fun x => !x.bad))
    shadowed := d.words.any (decidedBy d.snapshot .shadow)
    slots := listed.map (·.1)
    keyAddr := key
    keyData := match requestKind r with
      | .read => responseWord resp (key - requestAddr r)
      | .write => word.map (·.data)
    keyLanes := word.map (·.lanes) }

/-- A SOFT_RESET has been taken and waits for its request boundary (R173). -/
def softResetWaits (s : State) : Bool := s.link.executing == some (.boundary .softReset)

/-- A hold begins: the path is HELD, and the timer is loaded with the hold limit (R99). -/
def beginHold (r : BusRequest) (resp : BusResponse) (o : CaptureOffer) (s : State) : State :=
  (s.withForward { s.forward with path := .held { request := r, response := resp } }).withCapture
    { s.capture with held := some { offer := o, ticksLeft := s.control.config.holdLimit } }

/-- The capture unit takes an offer: admitted below 64 records, otherwise dropped or held by the policy; a hold that a
waiting SOFT_RESET meets ends at once (R95, R173). -/
def takeOffer (r : BusRequest) (resp : BusResponse) (o : CaptureOffer) (s : State) : State :=
  if level s < Config.captureDepth then giveResponse r resp (admitRecord o s)
  else match s.control.config.policy with
    | .drop => giveResponse r resp (dropRecord s)
    | .hold => if softResetWaits s then endHoldByDrop (beginHold r resp o s) else beginHold r resp o s

/-! ## Settle -/

/-- The capture-enabled slots of the counting set (R81, R92). -/
def listedSlots (d : Decided) (counting : List (Nat × Nat)) : List (Nat × Nat) :=
  counting.filter (fun p => (snapAt d.snapshot p.1).config.capture)

/-- The match unit's and the store's part of a settle (R38). -/
def settleUnits (r : BusRequest) (d : Decided) (o : RequestOutcome) (s : State) : State :=
  settleStore r o d
    (accountSlots (requestKind r) s.control.timestamp d (countingSet (requestKind r) o d) s)

/-- The record that a settle at a timestamp offers (R92, R95). -/
def settleOffer (r : BusRequest) (d : Decided) (o : RequestOutcome) (resp : BusResponse) (ts : Word) : CaptureOffer :=
  captureOffer r o d resp ts (listedSlots d (countingSet (requestKind r) o d))

/-- The settle of a request governed by ACTIVE (R37 to R39): the match unit, the store and the capture unit take the
result, then the response is given unless it is held. -/
def settle (r : BusRequest) (d : Decided) (o : RequestOutcome) (resp : BusResponse) (s : State) : State :=
  if (listedSlots d (countingSet (requestKind r) o d)).isEmpty then giveResponse r resp (settleUnits r d o s)
  else takeOffer r resp (settleOffer r d o resp s.control.timestamp) (settleUnits r d o s)

end Sys2Proof.Machine
end

