-- ==== Sys2Proof/Machine/Forward.lean ====
section
/-! DEFINITION. The forwarding path: acceptance (R28), the course of a request (R33, R34, R40, R41), the end of its downstream request (R35, R36). -/

namespace Sys2Proof.Machine

/-- The path enters WAIT_GRANT with a request and asks for the port (R33, R34, R40). -/
def requestPort (f : Flight) (s : State) : State :=
  present .forward (s.withForward { s.forward with path := .waitGrant f })

/-- A decision with its store words fetched (R33). -/
def fetchWords (m : Store) (d : Decided) : Decided := { d with words := d.words.map (fetchWord m d.snapshot) }

/-- A word decided by a SHADOW slot has a bad store word (R33, R58). -/
def shadowFaulted (d : Decided) : Bool := d.words.any (fun w => decidedBy d.snapshot .shadow w && faulted w)

/-- The course of a READ from its store fetch (R33). -/
def courseFetched (r : BusRequest) (d : Decided) (s : State) : State :=
  if shadowFaulted d then settle r d .storeFault .error s
  else if d.words.any (needsMemory d.snapshot) then requestPort ⟨r, .active, some d⟩ s
  else settle r d .okay (okayResponse r d []) s

/-- The course of a READ from its decision (R33). -/
def courseRead (r : BusRequest) (d : Decided) (s : State) : State :=
  if d.words.any (decidedBy d.snapshot .guard) then settle r d .refused .error s
  else courseFetched r (fetchWords s.store d) s

/-- The course of a WRITE from its decision (R34, R62, R65). -/
def courseWrite (r : BusRequest) (d : Decided) (s : State) : State :=
  if d.words.any (decidedBy d.snapshot .guard) then settle r d .refused .error s
  else if anyLane (passedWords d (requestWords r)) then requestPort ⟨r, .active, some d⟩ s
  else settle r d .okay (okayResponse r d []) s

/-- The snapshot and the decision of a request accepted in ACTIVE (R28, R32). -/
def decideRequest (r : BusRequest) (s : State) : Decided :=
  { snapshot := takeSnapshot s.table, words := decideWords (takeSnapshot s.table) (requestKind r) (requestAddrs r) }

/-- A request governed by ACTIVE: malformed, answered ERROR at once (R41), or decided (R33, R34). -/
def governActive (r : BusRequest) (s : State) : State :=
  if malformed r then giveResponse r .error (raise .malformed s)
  else match requestKind r with
    | .read => courseRead r (decideRequest r s) s
    | .write => courseWrite r (decideRequest r s) s

/-- The governing part state is fixed, and the request is forwarded or decided (R28, R40). -/
def routeRequest (r : BusRequest) (s : State) : State :=
  match s.control.part with
  | .active => governActive r s
  | p => requestPort ⟨r, p, none⟩ s

/-- Acceptance, as one step: FBYP is sampled, then the request takes its way (R28). -/
def acceptRequest (r : BusRequest) (s : State) : State :=
  routeRequest r (sampleFbyp (s.withForward { s.forward with presented := none, given := none }))

/-- The port accepts a request: RESET is not active, the path is IDLE, and no command is being carried out at the
boundary (R28, R29, R168, R173). -/
def mayAccept (s : State) : Bool := !s.pins.reset && s.forward.path == .idle && !boundaryWaits s

/-- The memory has answered the downstream request of the request in flight: the port is freed and the request settles
(R36, R40). -/
def hostAnswered (f : Flight) (resp : BusResponse) (s : State) : State :=
  match resp, f.decided with
  | .error, none => giveResponse f.request .error (freePort false (raise .downError s))
  | .error, some d => settle f.request d .memError .error (freePort false (raise .downError s))
  | .okay data, none => giveResponse f.request (.okay data) (freePort false s)
  | .okay data, some d => settle f.request d .okay (okayResponse f.request d data) (freePort false s)

/-- The timeout of the downstream request of the request in flight has expired (R35, R40). -/
def hostTimedOut (f : Flight) (s : State) : State :=
  match f.decided with
  | none => giveResponse f.request .error (freePort true (raise .downTimeout s))
  | some d => settle f.request d .timeout .error (freePort true (raise .downTimeout s))

end Sys2Proof.Machine
end

