-- ==== Sys2Proof/Machine/Control.lean ====
section
/-! DEFINITION. The control unit's operations: the change of a soft reset (R174), power-on reset (R168), the timestamp tick (R178), the start-up clear (R169). -/

namespace Sys2Proof.Machine

/-- The control unit after the change of a soft reset (R166, R174). -/
def softResetControl (c : Control) : Control :=
  { part := .bypass, forced := false, clear := c.clear, config := defaultConfig, timestamp := 0, prescaleCount := 0,
    causes := 0 }

/-- The effects of a soft reset on every block, made as one change, and the completion of the command (R173, R174). -/
def softResetChange (s : State) : State :=
  complete .ok []
    { s with
      control := softResetControl s.control
      table := resetTable
      forward := { s.forward with lastAccess := none }
      capture := resetCapture
      arbiter := { s.arbiter with linkPassed := 0, sweepPassed := 0 }
      sweep := resetSweep }

/-- RESET becomes active: every block takes its power-on state; what was in progress is abandoned and an outstanding
downstream request is aborted. The request that the host still presents, the input lines and the store's cells stay
(R42, R68, R113, R120, R149, R164, R168). -/
def powerOnState (s : State) : State :=
  { State.reset with
    pending := s.pending
    pins := { reset := true, fbyp := s.pins.fbyp, lsel := s.pins.lsel, markLeft := 0 }
    store := s.store
    forward := { path := .idle, lastAccess := none, presented := s.forward.presented, given := none }
    port := { outstanding := none, aborted := s.port.outstanding.isSome } }

/-- One advance of the timestamp counter: the prescale count returns to 0 and a hold timer counts the tick
(R178, R99). -/
def tick (s : State) : State :=
  (s.withControl { s.control with timestamp := s.control.timestamp + 1, prescaleCount := 0 }).withCapture
    { s.capture with held := s.capture.held.map (fun o => { o with ticksLeft := o.ticksLeft - 1 }) }

/-- The start-up clear has written its last word: every word holds 0 with good parity, the part is BYPASS, and STARTED is
raised (R169, R48). -/
def finishClear (s : State) : State :=
  raise .started ((s.withStore []).withControl { s.control with part := .bypass, clear := .complete })

end Sys2Proof.Machine
end

