-- ==== Sys2Proof/Machine/Sweep.lean ====
section
/-! DEFINITION. The sweep engine: blocks (R134 to R138), failure and ending (R139, R140), what the commands that wait for a block then do (R141, R143, R148). -/

namespace Sys2Proof.Machine

/-! ## Ending -/

/-- At DONE with an expected CRC, match is set if the CRC equals it (R131). -/
def matchAtDone (w : SweepWork) : SweepWork :=
  match w with
  | .check (some e) crc _ => .check (some e) crc (some (crc == e))
  | other => other

/-- The record at an ending (R140). -/
def endedRecord (o : SweepOutcome) (r : SweepRecord) : SweepRecord :=
  { r with outcome := o, work := if o = .done then matchAtDone r.work else r.work }

/-- The sweep ends: outcome, no block in hand, IDLE, SWEEP_END raised (R140). -/
def endSweep (o : SweepOutcome) (s : State) : State :=
  raise .sweepEnd (s.withSweep { state := .idle, record := s.sweep.record.map (endedRecord o), block := none })

/-- The sweep fails with a cause and an address (R137, R139). -/
def failSweep (c : FailCause) (a : Nat) (s : State) : State :=
  endSweep .failed (updateRecord (fun r => { r with fail := some (c, a) }) s)

/-- A sweep has ended by its own event: a command that waits for the block is answered NO_SWEEP, a soft reset makes its
change (R141, R143, R148). -/
def afterOwnEnd (s : State) : State :=
  match s.link.executing with
  | some .suspend => complete .noSweep [] s
  | some .abort => complete .noSweep [] s
  | some .softResetBlock => softResetChange s
  | _ => s

/-! ## Blocks -/

/-- The words of the next block: to the end of its aligned block of 8, or of the range (R134). -/
def blockLength (r : SweepRecord) : Nat :=
  min (Config.blockWords - (r.start + r.done) % Config.blockWords) (r.count - r.done)

/-- The next block is in hand with its words, and its first access is presented (R134). -/
def presentBlock (r : SweepRecord) (words : List Word) (s : State) : State :=
  present .sweep (s.withSweep { s.sweep with block := some ⟨r.start + r.done, blockLength r, words, .waiting⟩ })

/-- The engine takes the next block in hand and presents its first access; a PUSH block first reads its store words, and
a bad one fails the sweep (R134, R137). -/
def takeBlock (s : State) : State :=
  match s.sweep.record with
  | none => s
  | some r =>
    match r.work with
    | .push offset _ =>
      match (storeReadRange s.store (offset + r.done) (blockLength r)).findIdx? (·.bad) with
      | some j => failSweep .storeParity (r.start + r.done + j) (raise .storeParity s)
      | none => presentBlock r ((storeReadRange s.store (offset + r.done) (blockLength r)).map (·.data)) s
    | _ => presentBlock r [] s

/-- A waiting block is withdrawn: it leaves the waiting set without a grant, and the engine's count is set to 0
(R134, R116). -/
def withdrawBlock (s : State) : State :=
  (s.withSweep { s.sweep with block := none }).withArbiter { s.arbiter with waitSweep := false, sweepPassed := 0 }

/-- A block has completed: the last one ends the sweep DONE; otherwise a command that waits for it acts, or the next
block is taken in hand (R134, R140, R141, R143, R148). -/
def blockCompleted (s : State) : State :=
  match s.sweep.record with
  | none => s
  | some r =>
    if r.count ≤ r.done then afterOwnEnd (endSweep .done s)
    else match s.link.executing with
      | some .suspend => complete .ok [] (s.withSweep { s.sweep with state := .suspended, block := none })
      | some .abort => complete .ok [] (endSweep .aborted s)
      | some .softResetBlock => softResetChange s
      | _ => takeBlock s

/-- Words done raised by the block (R135, R136, R138). -/
def countDone (b : Block) (r : SweepRecord) : SweepRecord := { r with done := r.done + b.count }

/-- A CHECK block's words are folded into the CRC and words done raised, as one change (R135). -/
def foldBlock (b : Block) (data : List Word) (r : SweepRecord) : SweepRecord :=
  match r.work with
  | .check e crc m => countDone b { r with work := .check e (crc32Fold crc data) m }
  | _ => r

/-- The positions at which the read back differs from the words written (R138). -/
def differing (b : Block) (data : List Word) : List Nat :=
  (List.range b.count).filter (fun j => data[j]? != b.words[j]?)

/-- The mismatch fields after a read back (R138). -/
def compareBlock (b : Block) (data : List Word) (v : Readback) : Readback :=
  { mismatches := v.mismatches + (differing b data).length
    first := v.first <|> ((differing b data).head?.map (b.addr + ·)) }

/-- A PUSH block's read back is compared and words done raised (R138). -/
def verifyBlock (b : Block) (data : List Word) (r : SweepRecord) : SweepRecord :=
  match r.work with
  | .push offset v => countDone b { r with work := .push offset (v.map (compareBlock b data)) }
  | _ => r

/-- A block's OKAY response (R135, R136, R138). DESIGN CHOICE: the grant decision that the freed port makes, with its
report of a WRITE into the range, comes before the ending that the block brings: DONE at the last block, ABORTED by a command
that waits, or FAILED where the next block of a PUSH meets a bad store word. R145 lets either be taken first
(notes/assumptions/13.md). -/
def blockAnswered (r : SweepRecord) (b : Block) (data : List Word) (s : State) : State :=
  match r.work, b.phase with
  | .check _ _ _, _ => blockCompleted (freePort false (updateRecord (foldBlock b data) s))
  | .fill offset _, _ =>
    blockCompleted (freePort false
      (updateRecord (countDone b) (s.withStore (storeWriteWords false s.store (offset + r.done) data))))
  | .push _ _, .back => blockCompleted (freePort false (updateRecord (verifyBlock b data) s))
  | .push _ none, _ => blockCompleted (freePort false (updateRecord (countDone b) s))
  | .push _ (some _), _ =>
    present .sweep (freePort false (s.withSweep { s.sweep with block := some { b with phase := .backWaiting } }))

/-- The access of the block in hand that is outstanding, if one is. -/
def sweepRequest (r : SweepRecord) (b : Block) : Option BusRequest :=
  match b.phase with
  | .access => some (blockRequest r.work b)
  | .back => some (.read b.addr b.count)
  | _ => none

/-- A block access has failed: the port is freed and the sweep ends FAILED at the block's first address (R139).
DESIGN CHOICE: the grant decision, with its report of a WRITE into the range, comes before the ending, where R145 lets either
be taken first (notes/assumptions/13.md). -/
def blockFailed (byAbort : Bool) (c : FailCause) (b : Block) (s : State) : State :=
  afterOwnEnd (failSweep c b.addr (freePort byAbort s))

/-- The memory has answered the block access that is outstanding (R134, R139). -/
def sweepAnswered (r : SweepRecord) (b : Block) (resp : BusResponse) (s : State) : State :=
  match resp with
  | .error => blockFailed false .memError b (raise .downError s)
  | .okay data => blockAnswered r b data s

/-! ## Start, and the soft reset's part -/

/-- The record of a sweep just started (R130). -/
def startedRecord (start count : Nat) (work : SweepWork) : SweepRecord :=
  { start := start, count := count, done := 0, outcome := .pending, fail := none, disturbed := false, work := work }

/-- A start command that has passed its checks: the record is replaced, the state is RUNNING, the command answers OK, and
the first block is taken in hand (R130). -/
def startSweep (r : SweepRecord) (s : State) : State :=
  takeBlock (complete .ok [] (s.withSweep { state := .running, record := some r, block := none }))

/-- The soft reset at its request boundary: a waiting block is withdrawn, a begun one awaited, then the change
(R148, R173). -/
def carrySoftReset (s : State) : State :=
  match s.sweep.block with
  | none => softResetChange s
  | some b => if b.phase = .waiting then softResetChange (withdrawBlock s) else await .softResetBlock s

end Sys2Proof.Machine
end

