-- ==== Sys2Proof/Machine/LinkAccess.lean ====
section
/-! DEFINITION. The link access unit: the sources of a view read (R124, R125), the begin of an access (R120), the answers of the memory and the failures (R122 to R127). -/

namespace Sys2Proof.Machine

/-! ## The view read -/

/-- A word whose four lanes come from memory, with its source (R124). -/
def memoryWord (src : ViewSource) : ViewWord := { source := src, lanes := 0, data := 0 }

/-- The source of a word that a PATCH or SHADOW slot decided, by the parity of its store word (R124). -/
def storeSource (c : SlotConfig) (w : StoreWord) : ViewWord :=
  if w.bad then memoryWord .storeFault
  else { source := .store, lanes := if c.mode = .patch then c.lanes else allLanes, data := w.data }

/-- The source of a decided word (R124). -/
def viewWord (snap : List SnapSlot) (d : WordDecision) : ViewWord :=
  match deciderConfig snap d, d.fetched with
  | some c, some w => storeSource c w
  | some c, none => if c.mode = .guard then memoryWord .guarded else memoryWord .memory
  | none, _ => memoryWord .memory

/-- The decision of a view read against the active table as it stands, with the store words fetched (R124). -/
def decideView (addr count : Nat) (s : State) : Decided :=
  fetchWords s.store (decideRequest (.read addr count) s)

/-- The predicted outcome (R124). -/
def predictOutcome (d : Decided) : RequestOutcome :=
  if d.words.any (decidedBy d.snapshot .guard) then .refused
  else if shadowFaulted d then .storeFault
  else .okay

/-- The view of a range in BYPASS: every word from memory (R124). -/
def bypassView (count : Nat) : List ViewWord := List.replicate count (memoryWord .memory)

/-- The view needs memory: some word is not taken from the store whole (R125). -/
def viewNeedsMemory (v : List ViewWord) : Bool := v.any (fun w => w.source != .store || w.lanes != allLanes)

/-- One word of the answer: its source, and its lanes from the store word and the memory word (R125, R188). -/
def viewBytes (v : ViewWord) (mem : Word) : List Byte := sourceCode v.source :: wordBytes (mixLanes v.lanes v.data mem)

/-- The payload of READ_VIEW (R188). -/
def viewPayload (predicted : RequestOutcome) (v : List ViewWord) (mem : List Word) : List Byte :=
  outcomeCode predicted :: v.zipIdx.flatMap (fun p => viewBytes p.1 (mem.getD p.2 0))

/-! ## Begin and end of an access -/

/-- A memory command begins its downstream part: the unit presents to the arbiter and the command waits (R120). -/
def beginAccess (job : AccessJob) (s : State) : State := present .link ((await .access s).withAccess (.waitGrant job))

/-- A memory command ends: the unit is IDLE, the command answers, and the port is freed (R117, R120). -/
def finishAccess (byAbort : Bool) (status : Status) (payload : List Byte) (s : State) : State :=
  freePort byAbort (complete status payload (s.withAccess .idle))

/-- WRITE_VERIFY issues its next access under the same grant (R117, R126). -/
def nextVerifyStep (job : AccessJob) (s : State) : State :=
  issueReported (jobRequest job) ((s.withPort { outstanding := none, aborted := false }).withAccess (.outstanding job))

/-- The mismatch bits of WRITE_VERIFY (R126). -/
def mismatchBits (w : WriteWord) (back : Word) : Word := (w.data ^^^ back) &&& laneBits w.lanes

/-- The memory has answered a link access OKAY (R122 to R126). -/
def linkAnswered (job : AccessJob) (data : List Word) (s : State) : State :=
  match job with
  | .readRaw _ _ => finishAccess false .ok (data.flatMap wordBytes) s
  | .readView _ _ view predicted => finishAccess false .ok (viewPayload predicted view data) s
  | .writeRaw _ _ => finishAccess false .ok [] s
  | .writeVerify a w .read => nextVerifyStep (.writeVerify a w (.write (data.headD 0))) s
  | .writeVerify a w (.write old) => nextVerifyStep (.writeVerify a w (.readBack old)) s
  | .writeVerify _ w (.readBack old) =>
    finishAccess false .ok (wordBytes old ++ wordBytes (data.headD 0) ++ wordBytes (mismatchBits w (data.headD 0))) s

/-- What the response to a failed access carries: for WRITE_VERIFY the step and the old word (R127, R187). -/
def failurePayload : AccessJob → List Byte
  | .writeVerify _ _ .read => [1]
  | .writeVerify _ _ (.write old) => 2 :: wordBytes old
  | .writeVerify _ _ (.readBack old) => 3 :: wordBytes old
  | _ => []

/-- The memory has answered a link access (R120, R127). -/
def linkAccessAnswered (job : AccessJob) (resp : BusResponse) (s : State) : State :=
  match resp with
  | .error => finishAccess false .memError (failurePayload job) (raise .downError s)
  | .okay data => linkAnswered job data s

/-- The timeout of a link access has expired (R118, R127). -/
def linkTimedOut (job : AccessJob) (s : State) : State :=
  finishAccess true .timeout (failurePayload job) (raise .downTimeout s)

end Sys2Proof.Machine
end

