-- ==== Sys2Proof/Machine/Boundary.lean ====
section
/-! DEFINITION. The commands that act at a request boundary, as they are carried out there (R29): R15 to R17, R19, R51, R52, R170, R171, R173. -/

namespace Sys2Proof.Machine

/-! ## Table commands -/

/-- A dirty slot that a running FILL keeps from being committed: staged PATCH or SHADOW, staged LIVE, its store range
over the destination (R15). -/
def commitConflicts (x : Slot) (offset count : Nat) : Bool :=
  x.dirty && rangeMeets x.staged offset count && x.staged.initial == .live

/-- The lowest-numbered slot that fails the conflict check of TABLE_COMMIT (R15). -/
def commitConflict (s : State) : Option Nat :=
  match fillDestination s.sweep with
  | some (o, n) => (List.range Config.slotCount).find? (fun i => commitConflicts (s.slot i) o n)
  | none => none

/-- A slot at a commit: a dirty one takes its staged configuration and starts afresh, a clean one stays (R16). -/
def commitSlot (x : Slot) : Slot :=
  if x.dirty then { staged := x.staged, dirty := false, active := x.staged, status := clearedStatus x.staged.initial }
  else x

/-- TABLE_COMMIT at its boundary (R15, R16). -/
def carryTableCommit (s : State) : State :=
  match commitConflict s with
  | some i => complete .conflict (natBytes 1 i) s
  | none => complete .ok (natBytes 1 (dirtySlots s.table).length) (s.withTable (s.table.map commitSlot))

/-- SLOT_STATE to LIVE meets a FILL that holds words of the slot's store range (R17). -/
def liveConflict (x : Slot) (e : SweepEngine) : Bool :=
  match fillDestination e with
  | some (o, n) => rangeMeets x.active o n
  | none => false

/-- The status after SLOT_STATE: naming LIVE sets the hit count to 0 (R17). -/
def namedStatus (st : SlotState) (x : SlotStatus) : SlotStatus :=
  { x with state := st, count := if st = .live then 0 else x.count }

/-- SLOT_STATE at its boundary (R17). -/
def carrySlotState (slot : Nat) (st : SlotState) (s : State) : State :=
  if st = .live ∧ liveConflict (s.slot slot) s.sweep = true then complete .conflict [] s
  else complete .ok [] (s.setStatus slot (namedStatus st (s.slot slot).status))

/-- The status after SLOT_ACK: the four flags clear (R19). -/
def ackedStatus (x : SlotStatus) : SlotStatus :=
  { x with hit := false, lost := false, handoffMissed := false, storeFault := false }

/-- SLOT_ACK at its boundary (R19). -/
def carrySlotAck (slot : Nat) (s : State) : State :=
  complete .ok [slotFlagByte (s.slot slot).status] (s.setStatus slot (ackedStatus (s.slot slot).status))

/-! ## Store and part commands -/

/-- A range of store offsets overlaps the destination of a FILL that is RUNNING or SUSPENDED (R51). -/
def storeConflict (offset count : Nat) (e : SweepEngine) : Bool :=
  match fillDestination e with
  | some (o, n) => overlaps offset count o n
  | none => false

/-- STORE_WRITE at its boundary (R51, R52). -/
def carryStoreWrite (offset : Nat) (poison : Bool) (words : List Word) (s : State) : State :=
  if storeConflict offset words.length s.sweep then complete .conflict [] s
  else complete .ok [] (s.withStore (storeWriteWords poison s.store offset words))

/-- ENGAGE at its boundary (R170). -/
def carryEngage (s : State) : State :=
  if s.pins.fbyp then complete .pinned [] s
  else match s.control.part with
    | .active => complete .ok [] s
    | _ => complete .ok [] (s.withControl { s.control with part := .active, forced := false })

/-- DISENGAGE of an ACTIVE part: refused while a SHADOW slot is LIVE and the force flag is off (R171). -/
def leaveActive (force : Bool) (s : State) : State :=
  match force, liveShadow s.table with
  | false, some i => complete .shadowLive (natBytes 1 i) s
  | _, _ => complete .ok [] (s.withControl { s.control with part := .bypass })

/-- DISENGAGE at its boundary (R171). -/
def carryDisengage (force : Bool) (s : State) : State :=
  if s.control.part = .active then leaveActive force s else complete .ok [] s

/-! ## The boundary -/

/-- A boundary command is carried out (R29). -/
def carry (b : BoundaryCommand) : State → State :=
  match b with
  | .tableCommit => carryTableCommit
  | .slotState slot st => carrySlotState slot st
  | .slotAck slot => carrySlotAck slot
  | .storeWrite offset poison words => carryStoreWrite offset poison words
  | .engage => carryEngage
  | .disengage force => carryDisengage force
  | .softReset => carrySoftReset

/-- A boundary command that has passed the checks made when it is taken: carried out at once at an IDLE path, otherwise
it waits (R29). -/
def atBoundary (b : BoundaryCommand) (s : State) : State :=
  if s.forward.path = .idle then carry b s else await (.boundary b) s

end Sys2Proof.Machine
end

