-- ==== Sys2Proof/Machine/Link.lean ====
section
/-! DEFINITION. The link interface: the outbound side (R150, R152, R153), the inbound checks (R154, R155), acknowledgement (R156), acceptance and start (R157, R158). -/

namespace Sys2Proof.Machine

/-! ## Outbound -/

/-- The held responses, oldest first (R151). -/
def heldResponses (es : List Entry) : List Response :=
  es.filterMap (fun e => match e with | .held r => some r | .reserved _ => none)

/-- The item that an exchange beginning now sends (R152). -/
def chooseItem (l : LinkInterface) : Sent :=
  match l.refusal, heldResponses l.responses with
  | some _, _ => .refusal
  | none, _ :: _ => .response
  | none, [] => .nothing

/-- The outbound frame of an exchange beginning now (R152, R187). -/
def composeFrame (l : LinkInterface) (alert : Bool) : List Byte :=
  match l.refusal, heldResponses l.responses with
  | some r, _ => outboundFrame r.seq r.status [true, r.earlierLost, false, alert] []
  | none, r :: _ => outboundFrame r.seq r.status [false, false, false, alert] r.payload
  | none, [] => outboundFrame 0 .vacant [false, false, true, alert] []

/-- An exchange begins: its item is chosen and its frame composed (R150, R152). -/
def beginExchange (s : State) : State :=
  s.withLink { s.link with
    exchange := some ⟨chooseItem s.link, composeFrame s.link s.alert, 0, []⟩ }

/-- The LDO output: the bit of the outbound frame now presented, and 1 beyond the frame (R150). DESIGN CHOICE: the level 1
where no exchange is in progress with RESET inactive (LSEL not asserted, or asserted before the release of RESET), where the
spec gives the line no level (notes/assumptions/14.md). -/
def State.ldo (s : State) : Bool :=
  match s.link.exchange with
  | some x => (bytesBits x.frame).getD x.shifted true
  | none => true

/-- Clocks of an exchange: one bit passes in each direction at each; the first 64 bytes taken are kept (R150). -/
def clockBits (bits : List Bool) (x : Exchange) : Exchange :=
  { x with shifted := x.shifted + bits.length, taken := (x.taken ++ bits).take (8 * Config.frameBytes) }

/-- The outbound frame has been shifted out whole (R153). -/
def delivered (x : Exchange) : Bool := 8 * x.frame.length ≤ x.shifted

/-! ## Inbound checks -/

/-- The length field of the bytes taken (R186). -/
def lengthField (bs : List Byte) : Nat := (bs.getD 0 0).toNat

/-- The bytes before the CRC field of a frame of the length that the first byte states (R186). -/
def frameBody (bs : List Byte) : List Byte := bs.take (lengthField bs - 2)

/-- The CRC field of the frame (R186). -/
def crcField (bs : List Byte) : Nat := bytesNat ((bs.drop (lengthField bs - 2)).take 2)

/-- The first check that the bytes taken fail, of the four in their order (R154). -/
def failedCheck (bs : List Byte) (full : Bool) : Option Status :=
  if lengthField bs < 7 ∨ Config.frameBytes < lengthField bs then some .oversize
  else if bs.length < lengthField bs then some .short
  else if crcField bs ≠ (crc16 (frameBody bs)).toNat then some .checkFail
  else if full then some .full
  else none

/-- The command that an intact frame brings: sequence, code, arguments (R186). -/
def frameCommand (bs : List Byte) : QueuedCommand :=
  { seq := bs.getD 1 0, code := (bs.getD 4 0).toNat, args := (frameBody bs).drop 5 }

/-- The ack sequence number of a frame whose ack-valid flag is set (R156, R186). -/
def frameAck (bs : List Byte) : Option Byte := if (bs.getD 3 0).getLsbD 0 then some (bs.getD 2 0) else none

/-! ## Acknowledgement -/

/-- The sequence echo of the item last sent (R156). -/
def lastEcho (l : LinkInterface) : Option Byte :=
  match l.lastSent with
  | .nothing => none
  | .refusal => l.refusal.map (·.seq)
  | .response => (heldResponses l.responses).head?.map (·.seq)

/-- The oldest held entry leaves the response queue (R156). -/
def removeHeld : List Entry → List Entry
  | [] => []
  | .held _ :: rest => rest
  | .reserved q :: rest => .reserved q :: removeHeld rest

/-- The item last sent leaves the link interface (R156). -/
def removeLast (l : LinkInterface) : LinkInterface :=
  match l.lastSent with
  | .nothing => l
  | .refusal => { dropReference .refusal l with refusal := none }
  | .response => { dropReference .response l with responses := removeHeld l.responses }

/-- An accepted frame's acknowledgement: the item last sent is removed if its echo is the number acknowledged (R156). -/
def acknowledge (ack : Option Byte) (s : State) : State :=
  if ack.isSome ∧ ack = lastEcho s.link then s.withLink (removeLast s.link) else s

/-! ## The end of an exchange -/

/-- The bytes taken in an exchange are examined: nothing, a refusal, or acceptance with the acknowledgement
(R154 to R157). -/
def examine (bs : List Byte) (s : State) : State :=
  if bs.isEmpty then s
  else match failedCheck bs (queueFull s) with
    | some st => refuse (bs.getD 1 0) st s
    | none => enqueue (frameCommand bs) (acknowledge (frameAck bs) s)

/-- The item last sent after the exchange; the exchange is over (R153). -/
def closeExchange (s : State) : State :=
  match s.link.exchange with
  | some x => s.withLink { s.link with
      lastSent := if delivered x then x.chosen else s.link.lastSent
      exchange := none }
  | none => s

/-- The release of LSEL after the given bits, as one event (R154). -/
def endExchange (bits : List Bool) (s : State) : State :=
  match s.link.exchange with
  | some x =>
    closeExchange (examine (bitsBytes (clockBits bits x).taken)
      (s.withLink { s.link with exchange := some (clockBits bits x) }))
  | none => s

/-! ## Acceptance and start of one command -/

/-- The head command starts: its entry is reserved and `run` is what the link interface and the block make of it
(R158, R159). -/
def startWith (run : State → State) (s : State) : State :=
  match s.link.commands with
  | q :: _ => run (reserve q.seq s)
  | [] => s

/-- A link command's row: an intact frame without an acknowledgement brings the command. It is refused FULL at a full
queue (R154), otherwise it joins the queue (R157), and at an empty queue it starts if an entry is free (R158).
The part takes no frame while RESET is active (R150). -/
def submit (q : QueuedCommand) (run : State → State) (s : State) : State :=
  if s.pins.reset then s
  else if queueFull s then refuse q.seq .full s
  else if s.link.commands.isEmpty && mayStart (enqueue q s) then startWith run (enqueue q s)
  else enqueue q s

/-- A link command's row whose command has the given arguments (R186, R188). -/
def submitCommand (seq : Byte) (c : Command) (run : State → State) (s : State) : State :=
  submit { seq := seq, code := commandCode c, args := commandArgs c } run s

end Sys2Proof.Machine
end

