-- ==== Sys2Proof/Machine/PartCommands.lean ====
section
/-! DEFINITION. NOP and PING (R162, R163) and the commands of the control unit (R170, R171, R173, R175, R177, R181 to R183). -/

namespace Sys2Proof.Machine

/-! ## NOP and PING -/

/-- NOP at its start (R162). -/
def runNop (s : State) : State := complete .ok [] s

/-- The row NOP (R162). -/
def execNop (seq : Byte) (s : State) : Host.Outcome State Fault Refusal := .next (submitCommand seq .nop runNop s)

/-- The payload of PING: part code, revision, echo bytes (R163). -/
def pingPayload (echo : List Byte) : List Byte := natBytes 2 Config.partCode ++ natBytes 1 Config.revision ++ echo

/-- PING at its start; more than 8 echo bytes are answered LENGTH (R163). -/
def runPing (echo : List Byte) (s : State) : State :=
  if echo.length ≤ 8 then complete .ok (pingPayload echo) s else complete .length [] s

/-- The row PING (R163). -/
def execPing (seq : Byte) (echo : List Byte) (s : State) : Host.Outcome State Fault Refusal :=
  .next (submitCommand seq (.ping echo) (runPing echo) s)

/-! ## Part status -/

/-- The path is HELD (R27). -/
def isHeld : Path → Bool
  | .held _ => true
  | _ => false

/-- The payload of PART_STATUS (R183, R188). -/
def partStatusPayload (s : State) : List Byte :=
  [partCode s.control.part, flagByte [s.control.forced, s.pins.fbyp, isHeld s.forward.path]] ++
    natBytes 1 (dirtySlots s.table).length ++ [sweepStateCode s.sweep.state] ++ natBytes 1 (level s)

/-- PART_STATUS at its start (R183). -/
def runPartStatus (s : State) : State := complete .ok (partStatusPayload s) s

/-- The row PART_STATUS (R183). -/
def execPartStatus (seq : Byte) (s : State) : Host.Outcome State Fault Refusal :=
  .next (submitCommand seq .partStatus runPartStatus s)

/-! ## ENGAGE, DISENGAGE, SOFT_RESET -/

/-- ENGAGE at its start (R170). -/
def runEngage (s : State) : State := unlessStarting (atBoundary .engage) s

/-- The row ENGAGE (R170). -/
def execEngage (seq : Byte) (s : State) : Host.Outcome State Fault Refusal :=
  .next (submitCommand seq .engage runEngage s)

/-- DISENGAGE at its start (R171). -/
def runDisengage (force : Nat) (s : State) : State :=
  unlessStarting (fun s => match onOff force with
    | some f => atBoundary (.disengage f) s
    | none => complete .range [] s) s

/-- The row DISENGAGE (R171). -/
def execDisengage (seq : Byte) (force : Nat) (s : State) : Host.Outcome State Fault Refusal :=
  .next (submitCommand seq (.disengage force) (runDisengage force) s)

/-- The soft reset is carried out at an IDLE path (R173). -/
def carryAtIdle (s : State) : State := if s.forward.path = .idle then carrySoftReset s else s

/-- SOFT_RESET taken: a hold ends at once, and at an IDLE path the reset is carried out (R102, R173). -/
def takeSoftReset (s : State) : State := carryAtIdle (endHoldByDrop (await (.boundary .softReset) s))

/-- SOFT_RESET at its start (R173). -/
def runSoftReset (s : State) : State := unlessStarting takeSoftReset s

/-- The row SOFT_RESET (R173). -/
def execSoftReset (seq : Byte) (s : State) : Host.Outcome State Fault Refusal :=
  .next (submitCommand seq .softReset runSoftReset s)

/-! ## Configuration -/

/-- The configuration set written whole; a changed prescale sets the prescale count to 0, and the CAPTURE_LEVEL condition
is evaluated (R175, R176, R178). -/
def writeConfig (c : ConfigSet) (s : State) : State :=
  checkLevel (s.withControl { s.control with
    config := c
    prescaleCount := if c.prescale = s.control.config.prescale then s.control.prescaleCount else 0 })

/-- SET_CONFIG at its start (R175). -/
def runSetConfig (f : ConfigFields) (s : State) : State :=
  unlessStarting (fun s => match checkConfigFields f with
    | some c => complete .ok [] (writeConfig c s)
    | none => complete .range [] s) s

/-- The row SET_CONFIG (R175). -/
def execSetConfig (seq : Byte) (f : ConfigFields) (s : State) : Host.Outcome State Fault Refusal :=
  .next (submitCommand seq (.setConfig f) (runSetConfig f) s)

/-- READ_CONFIG at its start (R177). -/
def runReadConfig (s : State) : State := unlessStarting (fun s => complete .ok (configBytes s.control.config) s) s

/-- The row READ_CONFIG (R177). -/
def execReadConfig (seq : Byte) (s : State) : Host.Outcome State Fault Refusal :=
  .next (submitCommand seq .readConfig runReadConfig s)

/-! ## Alerts -/

/-- The payload of ALERT_STATUS (R182, R188). -/
def alertStatusPayload (s : State) : List Byte :=
  causeSetBytes s.control.causes ++ causeSetBytes s.control.config.enable ++
    slotSetBytes (slotsWith (·.hit) s.table) ++ slotSetBytes (slotsWith (·.lost) s.table)

/-- ALERT_STATUS at its start (R182). -/
def runAlertStatus (s : State) : State := complete .ok (alertStatusPayload s) s

/-- The row ALERT_STATUS (R182). -/
def execAlertStatus (seq : Byte) (s : State) : Host.Outcome State Fault Refusal :=
  .next (submitCommand seq .alertStatus runAlertStatus s)

/-- The named causes leave the pending set; while its condition holds CAPTURE_LEVEL is raised, and so stays (R181,
R110). -/
def clearCauses (named : CauseSet) (s : State) : State :=
  checkLevel (s.withControl { s.control with causes := s.control.causes &&& ~~~named })

/-- ALERT_ACK that has passed its checks: the answer is the pending set after the change (R181). -/
def ackCauses (named : CauseSet) (s : State) : State :=
  complete .ok (causeSetBytes (clearCauses named s).control.causes) (clearCauses named s)

/-- ALERT_ACK at its start (R181, R185). -/
def runAlertAck (causes : Nat) (s : State) : State :=
  unlessStarting (fun s =>
    if causes < 2 ^ 14 then ackCauses (BitVec.ofNat 14 causes) s else complete .range [] s) s

/-- The row ALERT_ACK (R181). -/
def execAlertAck (seq : Byte) (causes : Nat) (s : State) : Host.Outcome State Fault Refusal :=
  .next (submitCommand seq (.alertAck causes) (runAlertAck causes) s)

end Sys2Proof.Machine
end

