-- ==== Sys2Proof/Machine/AccessCommands.lean ====
section
/-! DEFINITION. The memory commands of the link access unit (R120 to R126) and LAST_ACCESS (R44). -/

namespace Sys2Proof.Machine

/-- READ_RAW at its start (R121, R122). -/
def runReadRaw (addr count : Nat) (s : State) : State :=
  unlessStarting (fun s =>
    if accessRange addr count then beginAccess (.readRaw addr count) s else complete .range [] s) s

/-- The row READ_RAW (R122). -/
def execReadRaw (seq : Byte) (addr count : Nat) (s : State) : Host.Outcome State Fault Refusal :=
  .next (submitCommand seq (.readRaw addr count) (runReadRaw addr count) s)

/-- READ_VIEW with its sources fixed: answered from the store alone, or with a downstream read (R124, R125). -/
def proceedView (addr count : Nat) (view : List ViewWord) (predicted : RequestOutcome) (s : State) : State :=
  if viewNeedsMemory view then beginAccess (.readView addr count view predicted) s
  else complete .ok (viewPayload predicted view []) s

/-- READ_VIEW past its checks (R124). -/
def takeReadView (addr count : Nat) (s : State) : State :=
  if s.control.part = .active then
    proceedView addr count ((decideView addr count s).words.map (viewWord (decideView addr count s).snapshot))
      (predictOutcome (decideView addr count s)) s
  else proceedView addr count (bypassView count) .okay s

/-- READ_VIEW at its start (R121, R124). -/
def runReadView (addr count : Nat) (s : State) : State :=
  unlessStarting (fun s => if accessRange addr count then takeReadView addr count s else complete .range [] s) s

/-- The row READ_VIEW (R124). -/
def execReadView (seq : Byte) (addr count : Nat) (s : State) : Host.Outcome State Fault Refusal :=
  .next (submitCommand seq (.readView addr count) (runReadView addr count) s)

/-- WRITE_RAW at its start (R121, R123). -/
def runWriteRaw (addr : Nat) (words : List WriteWord) (s : State) : State :=
  unlessStarting (fun s =>
    if accessRange addr words.length then beginAccess (.writeRaw addr words) s else complete .range [] s) s

/-- The row WRITE_RAW (R123). -/
def execWriteRaw (seq : Byte) (addr : Nat) (words : List WriteWord) (s : State) : Host.Outcome State Fault Refusal :=
  .next (submitCommand seq (.writeRaw addr words) (runWriteRaw addr words) s)

/-- WRITE_VERIFY at its start (R121, R126). -/
def runWriteVerify (addr : Nat) (word : WriteWord) (s : State) : State :=
  unlessStarting (fun s =>
    if addr < Config.spaceWords then beginAccess (.writeVerify addr word .read) s else complete .range [] s) s

/-- The row WRITE_VERIFY (R126). -/
def execWriteVerify (seq : Byte) (addr : Nat) (word : WriteWord) (s : State) : Host.Outcome State Fault Refusal :=
  .next (submitCommand seq (.writeVerify addr word) (runWriteVerify addr word) s)

/-- LAST_ACCESS at its start (R44, R120). -/
def runLastAccess (s : State) : State := unlessStarting (fun s => complete .ok (lastAccessBytes s.forward.lastAccess) s) s

/-- The row LAST_ACCESS (R44). -/
def execLastAccess (seq : Byte) (s : State) : Host.Outcome State Fault Refusal :=
  .next (submitCommand seq .lastAccess runLastAccess s)

end Sys2Proof.Machine
end

