-- ==== Sys2Proof/Machine/CaptureCommands.lean ====
section
/-! DEFINITION. The commands of the capture queue (R104 to R109). -/

namespace Sys2Proof.Machine

/-- The payload of CAPTURE_READ (R105, R188). -/
def captureReadPayload (records : List CaptureRecord) : List Byte :=
  natBytes 1 records.length ++ records.flatMap captureRecordBytes

/-- CAPTURE_READ at its start (R105). -/
def runCaptureRead (skip count : Nat) (s : State) : State :=
  unlessStarting (fun s =>
    if skip ≤ 63 ∧ (count = 1 ∨ count = 2) then
      complete .ok (captureReadPayload ((s.capture.queue.drop skip).take count)) s
    else complete .range [] s) s

/-- The row CAPTURE_READ (R105). -/
def execCaptureRead (seq : Byte) (skip count : Nat) (s : State) : Host.Outcome State Fault Refusal :=
  .next (submitCommand seq (.captureRead skip count) (runCaptureRead skip count) s)

/-- Records are removed and the command answers, the level reported before any admission; the removal ends a hold by
space (R100, R106). -/
def acknowledgeRecords (n : Nat) (s : State) : State :=
  endHoldBySpace
    (complete .ok (natBytes 1 n ++ natBytes 1 (level (removeOldest n s))) (removeOldest n s))

/-- CAPTURE_ACK at its start (R106). -/
def runCaptureAck (sequence : Nat) (s : State) : State :=
  unlessStarting (fun s => match ackCount (BitVec.ofNat 16 sequence) s.capture.queue with
    | some n => acknowledgeRecords n s
    | none => complete .notFound (natBytes 1 (level s)) s) s

/-- The row CAPTURE_ACK (R106). -/
def execCaptureAck (seq : Byte) (sequence : Nat) (s : State) : Host.Outcome State Fault Refusal :=
  .next (submitCommand seq (.captureAck sequence) (runCaptureAck sequence) s)

/-- All records are removed and the command answers; where there was one, a hold ends by space (R100, R108). -/
def flushRecords (s : State) : State :=
  if level s = 0 then complete .ok (natBytes 1 0) (removeOldest 0 s)
  else endHoldBySpace (complete .ok (natBytes 1 (level s)) (removeOldest (level s) s))

/-- CAPTURE_FLUSH at its start (R108). -/
def runCaptureFlush (s : State) : State := unlessStarting flushRecords s

/-- The row CAPTURE_FLUSH (R108). -/
def execCaptureFlush (seq : Byte) (s : State) : Host.Outcome State Fault Refusal :=
  .next (submitCommand seq .captureFlush runCaptureFlush s)

/-- The payload of CAPTURE_INFO (R109, R188). -/
def captureInfoPayload (s : State) : List Byte :=
  natBytes 1 (level s) ++ natBytes 2 s.capture.nextSeq.toNat ++ natBytes 2 s.capture.dropped ++
    [policyCode s.control.config.policy]

/-- CAPTURE_INFO at its start (R109). -/
def runCaptureInfo (s : State) : State := unlessStarting (fun s => complete .ok (captureInfoPayload s) s) s

/-- The row CAPTURE_INFO (R109). -/
def execCaptureInfo (seq : Byte) (s : State) : Host.Outcome State Fault Refusal :=
  .next (submitCommand seq .captureInfo runCaptureInfo s)

end Sys2Proof.Machine
end

