-- ==== Sys2Proof/Machine/StoreCommands.lean ====
section
/-! DEFINITION. The commands of the patch store (R50 to R52). -/

namespace Sys2Proof.Machine

/-- The payload of STORE_READ: the parity-bad bits, then the words (R50, R188). -/
def storeReadPayload (ws : List StoreWord) : List Byte :=
  natBytes 2 (bitsNat (ws.map (·.bad))) ++ ws.flatMap (fun w => wordBytes w.data)

/-- STORE_READ at its start (R50; STARTING is answered first, notes/assumptions/10.md). -/
def runStoreRead (offset count : Nat) (s : State) : State :=
  unlessStarting (fun s =>
    if storeRange offset count then complete .ok (storeReadPayload (storeReadRange s.store offset count)) s
    else complete .range [] s) s

/-- The row STORE_READ (R50). -/
def execStoreRead (seq : Byte) (offset count : Nat) (s : State) : Host.Outcome State Fault Refusal :=
  .next (submitCommand seq (.storeRead offset count) (runStoreRead offset count) s)

/-- STORE_WRITE at its start (R51, R185). -/
def runStoreWrite (offset poison : Nat) (words : List Word) (s : State) : State :=
  unlessStarting (fun s => match storeRange offset words.length, onOff poison with
    | true, some p => atBoundary (.storeWrite offset p words) s
    | _, _ => complete .range [] s) s

/-- The row STORE_WRITE (R51, R52). -/
def execStoreWrite (seq : Byte) (offset poison : Nat) (words : List Word) (s : State) : Host.Outcome State Fault Refusal :=
  .next (submitCommand seq (.storeWrite offset poison words) (runStoreWrite offset poison words) s)

end Sys2Proof.Machine
end

