-- ==== Sys2Proof/Machine/SweepCommands.lean ====
section
/-! DEFINITION. The commands of the sweep engine (R129 to R133, R141 to R144). -/

namespace Sys2Proof.Machine

/-! ## Start commands -/

/-- The checks that the start commands share: STARTING, BUSY, RANGE (R129). -/
def checkStart (inRange : Bool) (f : State → State) (s : State) : State :=
  unlessStarting (fun s =>
    if s.sweep.state ≠ .idle then complete .busy [] s
    else if inRange then f s
    else complete .range [] s) s

/-- SWEEP_CHECK at its start (R131). -/
def runSweepCheck (addr count : Nat) (expected : Option Word) (s : State) : State :=
  checkStart (sweepRange addr count Config.spaceWords)
    (startSweep (startedRecord addr count (.check expected 0 none))) s

/-- The row SWEEP_CHECK (R131). -/
def execSweepCheck (seq : Byte) (addr count : Nat) (expected : Option Word) (s : State) :
    Host.Outcome State Fault Refusal :=
  .next (submitCommand seq (.sweepCheck addr count expected) (runSweepCheck addr count expected) s)

/-- The range checks of SWEEP_FILL and SWEEP_PUSH (R132, R133). -/
def copyRange (addr count offset : Nat) : Bool :=
  sweepRange addr count Config.storeWords && offset + count ≤ Config.storeWords

/-- The lowest-numbered LIVE slot whose store range overlaps the destination of a FILL (R132). -/
def fillConflict (t : List Slot) (offset count : Nat) : Option Nat :=
  (List.range Config.slotCount).find? (fun i =>
    (slotAt t i).status.state == .live && rangeMeets (slotAt t i).active offset count)

/-- SWEEP_FILL past its range checks (R132). -/
def takeSweepFill (addr count offset : Nat) (s : State) : State :=
  match fillConflict s.table offset count with
  | some i => complete .conflict (natBytes 1 i) s
  | none => startSweep (startedRecord addr count (.fill offset false)) s

/-- SWEEP_FILL at its start (R132). -/
def runSweepFill (addr count offset : Nat) (s : State) : State :=
  checkStart (copyRange addr count offset) (takeSweepFill addr count offset) s

/-- The row SWEEP_FILL (R132). -/
def execSweepFill (seq : Byte) (addr count offset : Nat) (s : State) : Host.Outcome State Fault Refusal :=
  .next (submitCommand seq (.sweepFill addr count offset) (runSweepFill addr count offset) s)

/-- The mismatch fields that a PUSH starts with: present with verify on (R130). -/
def startedReadback (verify : Bool) : Option Readback := if verify then some { mismatches := 0, first := none } else none

/-- SWEEP_PUSH at its start; an unassigned verify flag is answered RANGE (R133, R185). -/
def runSweepPush (offset count addr verify : Nat) (s : State) : State :=
  checkStart (copyRange addr count offset && (onOff verify).isSome)
    (startSweep (startedRecord addr count (.push offset (startedReadback (onOff verify == some true))))) s

/-- The row SWEEP_PUSH (R133). -/
def execSweepPush (seq : Byte) (offset count addr verify : Nat) (s : State) : Host.Outcome State Fault Refusal :=
  .next (submitCommand seq (.sweepPush offset count addr verify) (runSweepPush offset count addr verify) s)

/-! ## Suspend, resume, abort, status -/

/-- The block in hand is begun (R134). -/
def blockBegun (e : SweepEngine) : Bool := e.block.any (fun b => b.phase != .waiting)

/-- SWEEP_SUSPEND past STARTING (R141). -/
def takeSweepSuspend (s : State) : State :=
  match s.sweep.state with
  | .idle => complete .noSweep [] s
  | .suspended => complete .ok [] s
  | .running =>
    if blockBegun s.sweep then await .suspend s
    else complete .ok [] (withdrawBlock (s.withSweep { s.sweep with state := .suspended }))

/-- SWEEP_SUSPEND at its start (R141). -/
def runSweepSuspend (s : State) : State := unlessStarting takeSweepSuspend s

/-- The row SWEEP_SUSPEND (R141). -/
def execSweepSuspend (seq : Byte) (s : State) : Host.Outcome State Fault Refusal :=
  .next (submitCommand seq .sweepSuspend runSweepSuspend s)

/-- SWEEP_RESUME past STARTING (R142). -/
def takeSweepResume (s : State) : State :=
  match s.sweep.state with
  | .suspended => takeBlock (complete .ok [] (s.withSweep { s.sweep with state := .running }))
  | _ => complete .noSweep [] s

/-- SWEEP_RESUME at its start (R142). -/
def runSweepResume (s : State) : State := unlessStarting takeSweepResume s

/-- The row SWEEP_RESUME (R142). -/
def execSweepResume (seq : Byte) (s : State) : Host.Outcome State Fault Refusal :=
  .next (submitCommand seq .sweepResume runSweepResume s)

/-- SWEEP_ABORT past STARTING (R143). -/
def takeSweepAbort (s : State) : State :=
  match s.sweep.state with
  | .idle => complete .noSweep [] s
  | .suspended => complete .ok [] (endSweep .aborted s)
  | .running =>
    if blockBegun s.sweep then await .abort s
    else complete .ok [] (endSweep .aborted (withdrawBlock s))

/-- SWEEP_ABORT at its start (R143). -/
def runSweepAbort (s : State) : State := unlessStarting takeSweepAbort s

/-- The row SWEEP_ABORT (R143). -/
def execSweepAbort (seq : Byte) (s : State) : Host.Outcome State Fault Refusal :=
  .next (submitCommand seq .sweepAbort runSweepAbort s)

/-- The payload of SWEEP_STATUS (R144, R188). -/
def sweepStatusPayload (e : SweepEngine) : List Byte := sweepStateCode e.state :: sweepRecordBytes e.record

/-- SWEEP_STATUS at its start (R144). -/
def runSweepStatus (s : State) : State := unlessStarting (fun s => complete .ok (sweepStatusPayload s.sweep) s) s

/-- The row SWEEP_STATUS (R144). -/
def execSweepStatus (seq : Byte) (s : State) : Host.Outcome State Fault Refusal :=
  .next (submitCommand seq .sweepStatus runSweepStatus s)

end Sys2Proof.Machine
end

