-- ==== Sys2Proof/Machine/TableCommands.lean ====
section
/-! DEFINITION. The commands of the slot table (R10 to R20). -/

namespace Sys2Proof.Machine

/-- A command that names a slot: STARTING first, then RANGE for a slot number above 23 (R10). -/
def onSlot (slot : Nat) (f : State → State) (s : State) : State :=
  unlessStarting (fun s => if slot < Config.slotCount then f s else complete .range [] s) s

/-- A slot with a configuration staged (R12). -/
def stageSlot (c : SlotConfig) (x : Slot) : Slot := { x with staged := c, dirty := true }

/-- SLOT_STAGE at its start (R11, R12). -/
def runSlotStage (slot : Nat) (f : SlotFields) (s : State) : State :=
  onSlot slot (fun s => match checkSlotFields slot f with
    | .ok c => complete .ok [] (s.setSlot slot (stageSlot c (s.slot slot)))
    | .error st => complete st [] s) s

/-- The row SLOT_STAGE (R11). -/
def execSlotStage (seq : Byte) (slot : Nat) (f : SlotFields) (s : State) : Host.Outcome State Fault Refusal :=
  .next (submitCommand seq (.slotStage slot f) (runSlotStage slot f) s)

/-- A slot with its active configuration copied over its staged one (R13). -/
def unstageSlot (x : Slot) : Slot := { x with staged := x.active, dirty := false }

/-- SLOT_UNSTAGE at its start (R13). -/
def runSlotUnstage (slot : Nat) (s : State) : State :=
  onSlot slot (fun s => complete .ok [] (s.setSlot slot (unstageSlot (s.slot slot)))) s

/-- The row SLOT_UNSTAGE (R13). -/
def execSlotUnstage (seq : Byte) (slot : Nat) (s : State) : Host.Outcome State Fault Refusal :=
  .next (submitCommand seq (.slotUnstage slot) (runSlotUnstage slot) s)

/-- TABLE_COMMIT at its start (R10, R15). -/
def runTableCommit (s : State) : State := unlessStarting (atBoundary .tableCommit) s

/-- The row TABLE_COMMIT (R15, R16). -/
def execTableCommit (seq : Byte) (s : State) : Host.Outcome State Fault Refusal :=
  .next (submitCommand seq .tableCommit runTableCommit s)

/-- TABLE_DISCARD at its start (R14). -/
def runTableDiscard (s : State) : State :=
  unlessStarting (fun s => complete .ok [] (s.withTable (s.table.map unstageSlot))) s

/-- The row TABLE_DISCARD (R14). -/
def execTableDiscard (seq : Byte) (s : State) : Host.Outcome State Fault Refusal :=
  .next (submitCommand seq .tableDiscard runTableDiscard s)

/-- SLOT_READ at its start (R20). -/
def runSlotRead (slot : Nat) (s : State) : State :=
  onSlot slot (fun s => complete .ok (slotReadBytes (s.slot slot)) s) s

/-- The row SLOT_READ (R20). -/
def execSlotRead (seq : Byte) (slot : Nat) (s : State) : Host.Outcome State Fault Refusal :=
  .next (submitCommand seq (.slotRead slot) (runSlotRead slot) s)

/-- SLOT_STATE at its start (R10, R17). -/
def runSlotState (slot state : Nat) (s : State) : State :=
  onSlot slot (fun s => match namedState state with
    | some st => atBoundary (.slotState slot st) s
    | none => complete .range [] s) s

/-- The row SLOT_STATE (R17). -/
def execSlotState (seq : Byte) (slot state : Nat) (s : State) : Host.Outcome State Fault Refusal :=
  .next (submitCommand seq (.slotState slot state) (runSlotState slot state) s)

/-- SLOT_ACK at its start (R10, R19). -/
def runSlotAck (slot : Nat) (s : State) : State := onSlot slot (atBoundary (.slotAck slot)) s

/-- The row SLOT_ACK (R19). -/
def execSlotAck (seq : Byte) (slot : Nat) (s : State) : Host.Outcome State Fault Refusal :=
  .next (submitCommand seq (.slotAck slot) (runSlotAck slot) s)

end Sys2Proof.Machine
end

