-- ==== Sys2Proof/Machine/Start.lean ====
section
/-! DEFINITION. The start of the command at the head of the queue: its dispatch to its block (R158, R159), and the consideration of the next one at every event that may let it start (R156, R157, R160). -/

namespace Sys2Proof.Machine

/-! ## Dispatch of a started command -/

/-- A dispatched command at its block (R159). -/
def runCommand (c : Command) : State → State :=
  match c with
  | .nop => runNop
  | .ping echo => runPing echo
  | .partStatus => runPartStatus
  | .engage => runEngage
  | .disengage force => runDisengage force
  | .softReset => runSoftReset
  | .setConfig f => runSetConfig f
  | .readConfig => runReadConfig
  | .alertStatus => runAlertStatus
  | .alertAck causes => runAlertAck causes
  | .slotStage slot f => runSlotStage slot f
  | .slotUnstage slot => runSlotUnstage slot
  | .tableCommit => runTableCommit
  | .tableDiscard => runTableDiscard
  | .slotRead slot => runSlotRead slot
  | .slotState slot state => runSlotState slot state
  | .slotAck slot => runSlotAck slot
  | .captureRead skip count => runCaptureRead skip count
  | .captureAck sequence => runCaptureAck sequence
  | .captureFlush => runCaptureFlush
  | .captureInfo => runCaptureInfo
  | .readRaw addr count => runReadRaw addr count
  | .readView addr count => runReadView addr count
  | .writeRaw addr words => runWriteRaw addr words
  | .writeVerify addr word => runWriteVerify addr word
  | .lastAccess => runLastAccess
  | .storeRead offset count => runStoreRead offset count
  | .storeWrite offset poison words => runStoreWrite offset poison words
  | .sweepCheck addr count expected => runSweepCheck addr count expected
  | .sweepFill addr count offset => runSweepFill addr count offset
  | .sweepPush offset count addr verify => runSweepPush offset count addr verify
  | .sweepSuspend => runSweepSuspend
  | .sweepResume => runSweepResume
  | .sweepAbort => runSweepAbort
  | .sweepStatus => runSweepStatus

/-- What the link interface makes of a started command's code and argument bytes: UNKNOWN, LENGTH, or the dispatch
(R159). -/
def runParsed (p : Parsed) : State → State :=
  match p with
  | .unknown => complete .unknown []
  | .badLength => complete .length []
  | .ok c => runCommand c

/-- A queued command at its start (R159). -/
def runQueued (q : QueuedCommand) : State → State := runParsed (parseCommand q.code q.args)

/-! ## Start -/

/-- The head command starts where R158 lets it (R158, R159). -/
def startHead (s : State) : State :=
  match s.link.commands with
  | q :: _ => if mayStart s then runQueued q (reserve q.seq s) else s
  | [] => s

/-- The head is considered for its start `n` times, each start that completes at once making room for the next
(R158, R160). -/
def startNext : Nat → State → State
  | 0, s => s
  | n + 1, s => startNext n (startHead s)

/-- The commands of the queue are considered for their start, in order, until one waits for its block or for an entry
(R158, R160). -/
def considerNext (s : State) : State := startNext s.link.commands.length s

end Sys2Proof.Machine
end

