-- ==== Sys2Proof/Machine/Events.lean ====
section
/-! DEFINITION. The rows of the lines, of the memory bus and of time, and the bus clock. An event that the present state leaves no room for changes nothing (notes/assumptions/8.md). -/

namespace Sys2Proof.Machine

/-! ## Lines -/

/-- The row POWER_ON_RESET: RESET becomes active (R168). -/
def execPowerOnReset (s : State) : Host.Outcome State Fault Refusal := .next (powerOnState s)

/-- RESET is released; the state is that of the power-on reset, which the part was held in (R168). -/
def releaseReset (s : State) : State := s.withPins { s.pins with reset := false }

/-- The row RESET_RELEASE (R168). -/
def execResetRelease (s : State) : Host.Outcome State Fault Refusal := .next (releaseReset s)

/-- FBYP becomes active; it acts while the path is IDLE (R30, R172). -/
def assertFbyp (s : State) : State :=
  if s.forward.path = .idle then sampleFbyp (s.withPins { s.pins with fbyp := true })
  else s.withPins { s.pins with fbyp := true }

/-- The row FBYP_ASSERT (R172). -/
def execFbypAssert (s : State) : Host.Outcome State Fault Refusal := .next (assertFbyp s)

/-- The row FBYP_RELEASE (R172). -/
def execFbypRelease (s : State) : Host.Outcome State Fault Refusal :=
  .next (s.withPins { s.pins with fbyp := false })

/-- The row STORE_UPSET: a store word holds new data and bad parity (R45). -/
def execStoreUpset (offset : Nat) (data : Word) (s : State) : Host.Outcome State Fault Refusal :=
  if offset < Config.storeWords then .next (s.withStore (storePut s.store offset { data := data, bad := true }))
  else .fault .noSuchStoreWord

/-! ## Memory bus -/

/-- The host presents a request: accepted where the port may accept (R28), otherwise it waits at the port. A request
that already waits is the one the port carries (R25, R168). -/
def presentRequest (request : BusRequest) (s : State) : State :=
  if mayAccept s then acceptRequest (s.forward.presented.getD request) s
  else s.withForward { s.forward with presented := some (s.forward.presented.getD request) }

/-- The row HOST_REQUEST_ACCEPT (R28). -/
def execHostRequestAccept (request : BusRequest) (s : State) : Host.Outcome State Fault Refusal :=
  if request.wellFormed then .next (presentRequest request s) else .refused .notABusRequest

/-- The row DOWNSTREAM_RESPONSE: the memory answers the forwarding path's request (R36). DESIGN CHOICE: the row answers the
request that the path has outstanding when it is taken (notes/assumptions/15.md). -/
def execDownstreamResponse (resp : BusResponse) (s : State) : Host.Outcome State Fault Refusal :=
  match s.forward.path with
  | .outstanding f =>
    if answers (downstreamRequest f) resp then .next (hostAnswered f resp s) else .refused .notABusResponse
  | _ => .next s

/-- The row LINK_ACCESS_RESPONSE: the memory answers a link access (R120); a completion considers the next command, whose
request comes after the grant decision (R160, R114); for the request of a sweep that starts so this order is a DESIGN CHOICE
(notes/assumptions/16.md). DESIGN CHOICE: the row answers the access that the unit has outstanding when it is taken, also one
that the expiry before it has let the next command issue, where R118 discards the response that meets an abort
(notes/assumptions/15.md). -/
def execLinkAccessResponse (resp : BusResponse) (s : State) : Host.Outcome State Fault Refusal :=
  match s.access with
  | .outstanding job =>
    if answers (jobRequest job) resp then .next (considerNext (linkAccessAnswered job resp s)) else .refused .notABusResponse
  | _ => .next s

/-- The sweep's block access that is outstanding, with its record and block (R134). -/
def sweepOutstanding (e : SweepEngine) : Option (SweepRecord × Block × BusRequest) :=
  match e.record, e.block with
  | some r, some b => (sweepRequest r b).map (fun q => (r, b, q))
  | _, _ => none

/-- The row SWEEP_BLOCK_RESPONSE: the memory answers a sweep block access (R134); the completion of a command that waited
for the block considers the next one (R160). DESIGN CHOICE: a memory command that starts so presents after the grant decision
at the port that the block freed, where R114 lets either be taken first (notes/assumptions/16.md); the row answers the access
that the engine has outstanding when it is taken (notes/assumptions/15.md). -/
def execSweepBlockResponse (resp : BusResponse) (s : State) : Host.Outcome State Fault Refusal :=
  match sweepOutstanding s.sweep with
  | some (r, b, q) => if answers q resp then .next (considerNext (sweepAnswered r b resp s)) else .refused .notABusResponse
  | none => .next s

/-! ## Time -/

/-- The timeout of a sweep's block access has expired (R118, R139). -/
def sweepTimedOut (b : Block) (s : State) : State := blockFailed true .timeout b (raise .downTimeout s)

/-- The timeout of the outstanding downstream request expires (R118). -/
def expireTimeout (s : State) : State :=
  match s.arbiter.owner with
  | some .forward => match s.forward.path with
    | .outstanding f => hostTimedOut f s
    | _ => s
  | some .link => match s.access with
    | .outstanding job => linkTimedOut job s
    | _ => s
  | some .sweep => match sweepOutstanding s.sweep with
    | some (_, b, _) => sweepTimedOut b s
    | none => s
  | none => s

/-- The expiry as one event, with the start of the command behind one that it completes (R118, R160). DESIGN CHOICE: a
request of the other requester, LINK behind a sweep's block or SWEEP behind a link access, is presented after the grant
decision (notes/assumptions/16.md). -/
def timeoutEvent (s : State) : State := considerNext (expireTimeout s)

/-- The row DOWNSTREAM_TIMEOUT_EXPIRY (R118). -/
def execDownstreamTimeoutExpiry (s : State) : Host.Outcome State Fault Refusal := .next (timeoutEvent s)

/-- The row HOLD_EXPIRY (R101). -/
def execHoldExpiry (s : State) : Host.Outcome State Fault Refusal := .next (endHoldByDrop s)

/-- The row TIMESTAMP_TICK; the counter stays at 0 while RESET is active (R178, R168). -/
def execTimestampTick (s : State) : Host.Outcome State Fault Refusal := .next (if s.pins.reset then s else tick s)

/-- The MARK pulse ends (R82). -/
def endMark (s : State) : State := s.withPins { s.pins with markLeft := 0 }

/-- The row MARK_PULSE_END (R82). -/
def execMarkPulseEnd (s : State) : Host.Outcome State Fault Refusal := .next (endMark s)

/-- The start-up clear completes, where it is running (R169). -/
def completeClear (s : State) : State :=
  match s.control.clear with
  | .running _ => if s.pins.reset then s else finishClear s
  | .complete => s

/-- The row STARTUP_CLEAR_COMPLETE (R169). -/
def execStartupClearComplete (s : State) : Host.Outcome State Fault Refusal := .next (completeClear s)

/-! ## The bus clock (notes/assumptions/2.md) -/

/-- One bus clock of the start-up clear: one word is written, and the last one completes it (R48, R169). -/
def clockClear (s : State) : State :=
  match s.control.clear with
  | .complete => s
  | .running next =>
    if next + 1 < Config.storeWords then
      (s.withStore (storePut s.store next clearedWord)).withControl { s.control with clear := .running (next + 1) }
    else finishClear s

/-- One bus clock of the MARK pulse (R82). -/
def clockMark (s : State) : State := s.withPins { s.pins with markLeft := s.pins.markLeft - 1 }

/-- One bus clock of the downstream timeout (R35, R118). -/
def clockTimeout (s : State) : State :=
  match s.port.outstanding with
  | none => s
  | some d =>
    if d.timeout * Config.timeoutUnit ≤ d.elapsed + 1 then timeoutEvent s
    else s.withPort { s.port with outstanding := some { d with elapsed := d.elapsed + 1 } }

/-- One bus clock of the prescale count (R178). -/
def clockPrescale (s : State) : State :=
  if s.control.config.prescale ≤ s.control.prescaleCount then tick s
  else s.withControl { s.control with prescaleCount := s.control.prescaleCount + 1 }

/-- A hold whose timer has counted its ticks expires (R101). -/
def clockHold (s : State) : State :=
  match s.capture.held with
  | some o => if o.ticksLeft = 0 then endHoldByDrop s else s
  | none => s

/-- One bus clock with no command: what time alone brings about; nothing while RESET is active (R168). -/
def busClock (s : State) : State :=
  if s.pins.reset then s
  else clockHold (clockPrescale (clockTimeout (clockMark (clockClear s))))

end Sys2Proof.Machine
end

