-- ==== Sys2Proof/Machine/LinkEvents.lean ====
section
/-! DEFINITION. The rows of the link's machinery: LSEL_ASSERT, EXCHANGE_END, COMMAND_START, UNKNOWN_COMMAND, BOUNDARY_COMMAND_EXECUTION. -/

namespace Sys2Proof.Machine

/-! ## Rows -/

/-- LSEL is asserted: an exchange begins, unless LSEL is asserted already or RESET is active (R150, R152). -/
def assertLsel (s : State) : State :=
  if s.pins.lsel then s
  else if s.pins.reset then s.withPins { s.pins with lsel := true }
  else (beginExchange s).withPins { s.pins with lsel := true }

/-- The row LSEL_ASSERT (R150, R152). -/
def execLselAssert (s : State) : Host.Outcome State Fault Refusal := .next (assertLsel s)

/-- The row EXCHANGE_END: LSEL is released after the given bits were taken from LDI (R154). A command that the frame
brings, or that its acknowledgement frees an entry for, starts in the same event (R156, R158). -/
def execExchangeEnd (ldi : List Bool) (s : State) : Host.Outcome State Fault Refusal :=
  .next (considerNext (endExchange ldi (s.withPins { s.pins with lsel := false })))

/-- The row COMMAND_START: the start taken as a row of its own, with the start of the next command where this one completes
at once (R158, R160; notes/assumptions/7.md). -/
def execCommandStart (s : State) : Host.Outcome State Fault Refusal := .next (considerNext s)

/-- The row UNKNOWN_COMMAND: a frame whose code names no command; it is answered UNKNOWN at its start (R159). -/
def execUnknownCommand (seq : Byte) (code : Nat) (args : List Byte) (s : State) : Host.Outcome State Fault Refusal :=
  .next (submit { seq := seq, code := code, args := args } (runQueued { seq := seq, code := code, args := args }) s)

/-- The command that waits for a boundary is carried out, where the path is IDLE (R29). -/
def executeBoundary (s : State) : State :=
  match s.link.executing, s.forward.path with
  | some (.boundary b), .idle => carry b s
  | _, _ => s

/-- The row BOUNDARY_COMMAND_EXECUTION; the command's completion considers the next one (R29, R160). DESIGN CHOICE: a boundary
command that starts so is carried out before a host request that waits is accepted (notes/assumptions/16.md). -/
def execBoundaryCommandExecution (s : State) : Host.Outcome State Fault Refusal := .next (considerNext (executeBoundary s))

end Sys2Proof.Machine
end

