-- ==== Sys2Proof/Machine/Dispatch.lean ====
section
/-! DEFINITION. One arm for each command of the BX216: a direct call of its meaning. -/

namespace Sys2Proof.Machine

def exec (i : Instr) (s : State) : Host.Outcome State Fault Refusal :=
  match i with
  | .powerOnReset => Sys2Proof.Machine.execPowerOnReset s
  | .resetRelease => Sys2Proof.Machine.execResetRelease s
  | .startupClearComplete => Sys2Proof.Machine.execStartupClearComplete s
  | .fbypAssert => Sys2Proof.Machine.execFbypAssert s
  | .fbypRelease => Sys2Proof.Machine.execFbypRelease s
  | .storeUpset offset data => Sys2Proof.Machine.execStoreUpset offset data s
  | .hostRequestAccept request => Sys2Proof.Machine.execHostRequestAccept request s
  | .downstreamResponse response => Sys2Proof.Machine.execDownstreamResponse response s
  | .linkAccessResponse response => Sys2Proof.Machine.execLinkAccessResponse response s
  | .sweepBlockResponse response => Sys2Proof.Machine.execSweepBlockResponse response s
  | .downstreamTimeoutExpiry => Sys2Proof.Machine.execDownstreamTimeoutExpiry s
  | .holdExpiry => Sys2Proof.Machine.execHoldExpiry s
  | .timestampTick => Sys2Proof.Machine.execTimestampTick s
  | .markPulseEnd => Sys2Proof.Machine.execMarkPulseEnd s
  | .lselAssert => Sys2Proof.Machine.execLselAssert s
  | .exchangeEnd ldi => Sys2Proof.Machine.execExchangeEnd ldi s
  | .commandStart => Sys2Proof.Machine.execCommandStart s
  | .unknownCommand seq code args => Sys2Proof.Machine.execUnknownCommand seq code args s
  | .boundaryCommandExecution => Sys2Proof.Machine.execBoundaryCommandExecution s
  | .nop seq => Sys2Proof.Machine.execNop seq s
  | .ping seq echo => Sys2Proof.Machine.execPing seq echo s
  | .partStatus seq => Sys2Proof.Machine.execPartStatus seq s
  | .engage seq => Sys2Proof.Machine.execEngage seq s
  | .disengage seq force => Sys2Proof.Machine.execDisengage seq force s
  | .softReset seq => Sys2Proof.Machine.execSoftReset seq s
  | .setConfig seq fields => Sys2Proof.Machine.execSetConfig seq fields s
  | .readConfig seq => Sys2Proof.Machine.execReadConfig seq s
  | .alertStatus seq => Sys2Proof.Machine.execAlertStatus seq s
  | .alertAck seq causes => Sys2Proof.Machine.execAlertAck seq causes s
  | .slotStage seq slot fields => Sys2Proof.Machine.execSlotStage seq slot fields s
  | .slotUnstage seq slot => Sys2Proof.Machine.execSlotUnstage seq slot s
  | .tableCommit seq => Sys2Proof.Machine.execTableCommit seq s
  | .tableDiscard seq => Sys2Proof.Machine.execTableDiscard seq s
  | .slotRead seq slot => Sys2Proof.Machine.execSlotRead seq slot s
  | .slotState seq slot state => Sys2Proof.Machine.execSlotState seq slot state s
  | .slotAck seq slot => Sys2Proof.Machine.execSlotAck seq slot s
  | .captureRead seq skip count => Sys2Proof.Machine.execCaptureRead seq skip count s
  | .captureAck seq sequence => Sys2Proof.Machine.execCaptureAck seq sequence s
  | .captureFlush seq => Sys2Proof.Machine.execCaptureFlush seq s
  | .captureInfo seq => Sys2Proof.Machine.execCaptureInfo seq s
  | .readRaw seq addr count => Sys2Proof.Machine.execReadRaw seq addr count s
  | .readView seq addr count => Sys2Proof.Machine.execReadView seq addr count s
  | .writeRaw seq addr words => Sys2Proof.Machine.execWriteRaw seq addr words s
  | .writeVerify seq addr word => Sys2Proof.Machine.execWriteVerify seq addr word s
  | .lastAccess seq => Sys2Proof.Machine.execLastAccess seq s
  | .storeRead seq offset count => Sys2Proof.Machine.execStoreRead seq offset count s
  | .storeWrite seq offset poison words => Sys2Proof.Machine.execStoreWrite seq offset poison words s
  | .sweepCheck seq addr count expected => Sys2Proof.Machine.execSweepCheck seq addr count expected s
  | .sweepFill seq addr count offset => Sys2Proof.Machine.execSweepFill seq addr count offset s
  | .sweepPush seq offset count addr verify => Sys2Proof.Machine.execSweepPush seq offset count addr verify s
  | .sweepSuspend seq => Sys2Proof.Machine.execSweepSuspend seq s
  | .sweepResume seq => Sys2Proof.Machine.execSweepResume seq s
  | .sweepAbort seq => Sys2Proof.Machine.execSweepAbort seq s
  | .sweepStatus seq => Sys2Proof.Machine.execSweepStatus seq s

end Sys2Proof.Machine
end

