-- ==== Sys2Proof/Machine/Step.lean ====
section
/-! DEFINITION. One step: the command at the front of the queue, or one bus clock. -/

namespace Sys2Proof.Machine

/-- The machine with its queue of waiting commands replaced. -/
def State.withPending (s : State) (q : List Instr) : State := { s with pending := q }

/-- The command at the front of the queue is taken and executed; on an empty queue one bus clock passes
(notes/assumptions/1.md, 2.md). -/
def step (s : State) : Host.Outcome State Fault Refusal :=
  match s.pending with
  | [] => .next (busClock s)
  | c :: rest => exec c (s.withPending rest)

/-- The command that a word spells is put at the front of the queue; no row of the table gives a word any bits. -/
def State.withFetchWord (s : State) (nbits w : Nat) : State :=
  match Sys2Proof.decodeTableWord nbits w with
  | some c => s.withPending (c :: s.pending)
  | none => s

end Sys2Proof.Machine
end

