-- ==== Sys2Proof/Safety.lean ====
section
/-! DEFINITION. What a sound state of the BX216 is: the constraints that the spec's rules put on the state of each unit and between units, and how an answer to a link command shows. -/

namespace Sys2Proof.Machine

/-! ## Patch store and slot table -/

/-- The patch store is in its canonical form (R45, R48). -/
abbrev StoreSound (s : State) : Prop := Store.wf s.store = true

/-- The table holds 24 slots (R1). -/
abbrev TableSound (s : State) : Prop := s.table.length = Config.slotCount

/-- A slot that is to leave LIVE at its limit has not reached it while it is LIVE (R83, R85, R86). -/
abbrev belowLimit (x : Slot) : Prop :=
  x.status.state = .live → x.active.limit ≠ 0 → x.active.action ≠ .notify → x.status.count < x.active.limit

/-- Every slot is below its limit in that sense. -/
abbrev LimitsSound (s : State) : Prop := ∀ x ∈ s.table, belowLimit x

/-- A staged or active configuration obeys the ranges of 01 section 1.2 for its slot (R11, R12). -/
abbrev configInRange (slot : Nat) (c : SlotConfig) : Prop :=
  c.base < Config.spaceWords ∧ c.k ≤ maxExponent c.mode ∧ c.base % 2 ^ c.k = 0 ∧
    (hasStoreRange c.mode = false → c.kinds ≤ 2) ∧
    (hasStoreRange c.mode = true → c.offset + 2 ^ c.k ≤ Config.storeWords) ∧
    (c.mode = .patch → c.lanes ≠ 0) ∧
    (c.action = .handoff → c.limit ≠ 0 → c.link < Config.slotCount ∧ c.link ≠ slot) ∧ c.initial ≠ .spent

/-- Every configuration of the table is in range. -/
abbrev ConfigsSound (s : State) : Prop :=
  ∀ i < Config.slotCount, configInRange i (s.slot i).staged ∧ configInRange i (s.slot i).active

/-! ## Capture unit -/

/-- Sequence numbers run on without gaps and end below the next one (R94, R96). -/
def consecutive (next : Sequence) : List CaptureRecord → Bool
  | [] => true
  | r :: rest => r.sequence == next - BitVec.ofNat 16 (rest.length + 1) && consecutive next rest

/-- The queue holds at most 64 records with consecutive sequence numbers, and the drop counts are within their ranges
(R94, R98). -/
abbrev CaptureSound (s : State) : Prop :=
  s.capture.queue.length ≤ Config.captureDepth ∧ consecutive s.capture.nextSeq s.capture.queue = true ∧
    s.capture.dropped ≤ 65535 ∧ s.capture.pendingDrops ≤ 255 ∧ ∀ r ∈ s.capture.queue, r.dropsBefore ≤ 255

/-! ## Part state -/

/-- The start-up clear is running exactly in STARTING (R166, R169); a part whose forced indication is set is in BYPASS
(R166); an active FBYP leaves no ACTIVE part at an IDLE path (R30, R172). -/
abbrev PartSound (s : State) : Prop :=
  (s.control.part = .starting ↔ s.control.clear ≠ .complete) ∧
    (s.control.forced = true → s.control.part = .bypass) ∧
    (s.pins.fbyp = true → s.forward.path = .idle → s.control.part ≠ .active)

/-! ## Arbiter -/

/-- Passed-over counts are at most 255, and not 0 only while their requester waits (R113, R116). -/
abbrev CountsSound (s : State) : Prop :=
  s.arbiter.linkPassed ≤ 255 ∧ s.arbiter.sweepPassed ≤ 255 ∧
    (s.arbiter.linkPassed ≠ 0 → s.arbiter.waitLink = true) ∧ (s.arbiter.sweepPassed ≠ 0 → s.arbiter.waitSweep = true)

/-- The downstream request that the forwarding path has outstanding (R27). -/
def forwardRequest : Path → Option BusRequest
  | .outstanding f => some (downstreamRequest f)
  | _ => none

/-- The downstream request that the link access unit has outstanding (R120). -/
def accessRequest : Access → Option BusRequest
  | .outstanding job => some (jobRequest job)
  | _ => none

/-- The downstream request that the sweep engine has outstanding (R134). -/
def blockOutstanding (e : SweepEngine) : Option BusRequest := (sweepOutstanding e).map (·.2.2)

/-- The block in hand waits for a grant (R134). -/
def blockWaiting (e : SweepEngine) : Bool := e.block.any (fun b => b.phase == .waiting || b.phase == .backWaiting)

/-- The path waits for its grant (R27). -/
def pathWaiting : Path → Bool
  | .waitGrant _ => true
  | _ => false

/-- The link access unit waits for its grant (R120). -/
def accessWaiting : Access → Bool
  | .waitGrant _ => true
  | _ => false

/-- The request that the port owner has outstanding. -/
def ownerRequest (s : State) : Option BusRequest :=
  match s.arbiter.owner with
  | none => none
  | some .forward => forwardRequest s.forward.path
  | some .link => accessRequest s.access
  | some .sweep => blockOutstanding s.sweep

/-- The downstream request in progress belongs to exactly one requester, the port owner, and a requester is in the
waiting set from its request until its grant (R113). -/
abbrev PortSound (s : State) : Prop :=
  s.port.outstanding.map (·.request) = ownerRequest s ∧
    (s.arbiter.owner = some .forward ↔ (forwardRequest s.forward.path).isSome = true) ∧
    (s.arbiter.owner = some .link ↔ (accessRequest s.access).isSome = true) ∧
    (s.arbiter.owner = some .sweep ↔ (blockOutstanding s.sweep).isSome = true) ∧
    s.arbiter.waitForward = pathWaiting s.forward.path ∧
    s.arbiter.waitLink = accessWaiting s.access ∧
    s.arbiter.waitSweep = blockWaiting s.sweep ∧
    (s.arbiter.owner = none →
      s.arbiter.waitForward = false ∧ s.arbiter.waitLink = false ∧ s.arbiter.waitSweep = false)

/-! ## Sweep engine -/

/-- A sweep that has not ended is within its range, and has words left (R128, R131 to R134). -/
abbrev sweepInRange (r : SweepRecord) : Prop :=
  r.done < r.count ∧ r.start + r.count ≤ Config.spaceWords ∧ r.outcome = .pending ∧ r.fail = none

/-- The block in hand is the next one of the sweep; a PUSH block carries its words (R134, R137). -/
abbrev blockInRange (r : SweepRecord) (b : Block) : Prop :=
  b.addr = r.start + r.done ∧ b.count = blockLength r ∧
    (workCode r.work = workCode (.push 0 none) → b.words.length = b.count) ∧
    (b.phase = .backWaiting ∨ b.phase = .back → (workVerify r.work).isSome = true)

/-- The sweep record and the block in hand agree with the sweep state (R128, R134). -/
abbrev SweepSound (s : State) : Prop :=
  (s.sweep.state = .idle → ∀ r ∈ s.sweep.record, r.outcome ≠ .pending ∧ r.done ≤ r.count) ∧
    (s.sweep.state ≠ .idle → s.sweep.record.isSome = true) ∧
    (s.sweep.state ≠ .idle → ∀ r ∈ s.sweep.record, sweepInRange r) ∧
    (s.sweep.state = .running ↔ s.sweep.block.isSome = true) ∧
    (∀ r ∈ s.sweep.record, ∀ b ∈ s.sweep.block, blockInRange r b)

/-! ## Hold and link interface -/

/-- A hold exists exactly while the path is HELD (R27, R99). -/
abbrev HoldSound (s : State) : Prop := isHeld s.forward.path = s.capture.held.isSome

/-- The entry is held. -/
def isHeldEntry : Entry → Bool
  | .held _ => true
  | .reserved _ => false

/-- The queues hold at most 4 each; one entry is reserved, the newest, exactly while a command executes, for the command
at the head of the command queue (R151, R158). -/
abbrev QueuesSound (l : LinkInterface) : Prop :=
  l.commands.length ≤ Config.linkDepth ∧ l.responses.length ≤ Config.linkDepth ∧
    (l.executing = none → l.responses.all isHeldEntry = true) ∧
    (l.executing ≠ none → l.commands ≠ [] ∧
      l.responses.getLast? = l.commands.head?.map (fun q => .reserved q.seq) ∧
      l.responses.dropLast.all isHeldEntry = true)

/-- The item last sent and the item of an exchange are in the link interface (R151, R153). -/
abbrev referenceSound (l : LinkInterface) (k : Sent) : Prop :=
  (k = .refusal → l.refusal.isSome = true) ∧ (k = .response → heldResponses l.responses ≠ [])

/-- The link interface is sound (R151, R153). -/
abbrev LinkSound (s : State) : Prop :=
  QueuesSound s.link ∧ referenceSound s.link s.link.lastSent ∧
    ∀ x ∈ s.link.exchange, referenceSound s.link x.chosen

/-- What the executing command waits for agrees with the units it waits for (R160): a memory command with the link access
unit (R120), a sweep command with a begun block of a RUNNING sweep (R141, R143), and a SOFT_RESET past its boundary with
such a block at an IDLE path (R173). Nothing waits in STARTING, where no command that waits is carried out (R167). -/
abbrev WaitSound (s : State) : Prop :=
  (s.link.executing = some .access ↔ s.access ≠ .idle) ∧
    (s.link.executing = some .suspend ∨ s.link.executing = some .abort ∨ s.link.executing = some .softResetBlock →
      blockBegun s.sweep = true) ∧
    (s.link.executing = some .softResetBlock → s.forward.path = .idle) ∧
    (softResetWaits s = true → isHeld s.forward.path = false) ∧
    (s.control.part = .starting → s.link.executing = none)

/-- While RESET is active nothing is in progress (R168). -/
abbrev ResetSound (s : State) : Prop :=
  s.pins.reset = true →
    s.control.part = .starting ∧ s.forward.path = .idle ∧ s.port.outstanding = none ∧ s.link.commands = [] ∧
      s.link.exchange = none ∧ s.control.timestamp = 0 ∧ s.pins.markLeft = 0 ∧ s.sweep.state = .idle

/-- No command waits that may start: a command is in the queue only behind an executing one, or for want of a response
entry (R158, R160). While RESET is active the link interface holds no command and no exchange (R150, R164). -/
abbrev StartSound (s : State) : Prop :=
  (s.link.commands ≠ [] → s.link.executing ≠ none ∨ Config.linkDepth ≤ s.link.responses.length) ∧
    (s.pins.reset = true → s.link.commands = [] ∧ s.link.exchange = none)

/-! ## Safe runs -/

/-- A sound state: every constraint above holds. -/
structure Sound (s : State) : Prop where
  store : StoreSound s
  table : TableSound s
  limits : LimitsSound s
  configs : ConfigsSound s
  capture : CaptureSound s
  part : PartSound s
  counts : CountsSound s
  port : PortSound s
  sweep : SweepSound s
  hold : HoldSound s
  link : LinkSound s
  wait : WaitSound s
  reset : ResetSound s

/-- A safe run: no step of it ends in a fault or a refusal. -/
def safeRun : Nat → State → Prop
  | 0, _ => True
  | n + 1, s => ∃ t, step s = .next t ∧ safeRun n t

/-! ## What the statements about commands speak of -/

/-- A response row's response is one that the bus carries to the request outstanding, if one is (R25). -/
def fitsOutstanding (c : Instr) (s : State) : Bool :=
  match c with
  | .downstreamResponse resp => (forwardRequest s.forward.path).all (fun q => answers q resp)
  | .linkAccessResponse resp => (accessRequest s.access).all (fun q => answers q resp)
  | .sweepBlockResponse resp => (blockOutstanding s.sweep).all (fun q => answers q resp)
  | _ => true

/-- The link interface is ready for a command that starts at once: RESET is released, the command queue is empty, no
command executes, and the response queue has a free entry among held ones (R157, R158). -/
abbrev LinkReady (s : State) : Prop :=
  s.pins.reset = false ∧ s.link.commands = [] ∧ s.link.executing = none ∧ s.link.responses.length < Config.linkDepth ∧
    s.link.responses.all isHeldEntry = true

/-- A ready link in BYPASS or ACTIVE (R167). -/
abbrev Ready (s : State) : Prop := LinkReady s ∧ s.control.part ≠ .starting

/-- The machine with one more response held, and nothing else changed (R160). -/
def answered (seq : Byte) (status : Status) (payload : List Byte) (s : State) : State :=
  s.withLink { s.link with responses := s.link.responses ++ [.held ⟨seq, status, payload⟩] }

/-- The link interface with the command of a ready link started and waiting: it is the head of the command queue, with
its entry reserved (R158). -/
def waitingLink (seq : Byte) (c : Command) (e : Executing) (l : LinkInterface) : LinkInterface :=
  { l with
    commands := [⟨seq, commandCode c, commandArgs c⟩]
    executing := some e
    responses := l.responses ++ [.reserved seq] }

/-- A command executes and waits for `e`: it is the head of the command queue, and the newest entry is reserved for it
(R158, R160). -/
abbrev Executes (s : State) (e : Executing) (q : QueuedCommand) (rest : List QueuedCommand) (held : List Entry) : Prop :=
  s.link.commands = q :: rest ∧ s.link.executing = some e ∧ s.link.responses = held ++ [.reserved q.seq] ∧
    held.all isHeldEntry = true

/-- The link interface after the completion of that command (R160). -/
def completedLink (l : LinkInterface) (rest : List QueuedCommand) (held : List Entry) (r : Response) : LinkInterface :=
  { l with commands := rest, executing := none, responses := held ++ [.held r] }

/-- No requester waits for the port (R113). -/
abbrev NobodyWaits (a : Arbiter) : Prop := a.waitForward = false ∧ a.waitLink = false ∧ a.waitSweep = false

/-- A downstream request just issued, with the timeout that the configuration set holds (R35, R118). -/
def issued (r : BusRequest) (s : State) : Option Downstream :=
  some { request := r, timeout := s.control.config.timeout, elapsed := 0 }

/-- The control unit after one bus clock of the prescale count: at prescale + 1 clocks the timestamp counter advances
(R178). -/
def clocked (c : Control) : Control :=
  if c.config.prescale ≤ c.prescaleCount then { c with timestamp := c.timestamp + 1, prescaleCount := 0 }
  else { c with prescaleCount := c.prescaleCount + 1 }

/-- The number of words of a sweep's block at `done` words done: to the end of its aligned block of 8, or of the range
(R134). -/
def countAt (r : SweepRecord) (done : Nat) : Nat := min (8 - (r.start + done) % 8) (r.count - done)

/-- The block in hand at its last OKAY response: the work of the record and the store that its completion leaves. A CHECK
folds the words, a FILL writes them, a PUSH ends at its write or, with verify, at its read back (R135, R136, R138). -/
abbrev BlockDone (r : SweepRecord) (b : Block) (data : List Word) (before : Store) (work : SweepWork) (after : Store) :
    Prop :=
  (∃ e crc k, r.work = .check e crc k ∧ work = .check e (crc32Fold crc data) k ∧ after = before ∧ b.phase = .access ∧
      data.length = b.count) ∨
    (∃ o v, r.work = .fill o v ∧ work = r.work ∧ after = storeWriteWords false before (o + r.done) data ∧
      b.phase = .access ∧ data.length = b.count) ∨
    (∃ o, r.work = .push o none ∧ work = r.work ∧ after = before ∧ b.phase = .access ∧ data = []) ∨
    (∃ o v, r.work = .push o (some v) ∧ after = before ∧ b.phase = .back ∧ data.length = b.count ∧
      work = .push o (some
        { mismatches := v.mismatches + ((List.range b.count).filter (fun j => data[j]? != b.words[j]?)).length
          first := v.first <|>
            (((List.range b.count).filter (fun j => data[j]? != b.words[j]?)).head?.map (b.addr + ·)) }))

/-- The work of a record at the ending DONE: a CHECK with an expected CRC sets match if the CRC equals it (R131, R140). -/
def doneWork : SweepWork → SweepWork
  | .check (some e) crc _ => .check (some e) crc (some (crc == e))
  | w => w

/-- No command that executes waits for the block in hand (R141, R143, R173). -/
abbrev NoWaiter (l : LinkInterface) : Prop :=
  l.executing ≠ some .suspend ∧ l.executing ≠ some .abort ∧ l.executing ≠ some .softResetBlock

/-- The machine after the change of a soft reset, with a given link interface: every block but the store, the pins, the
ports and the link interface in its reset state (R174). -/
def softResetState (l : LinkInterface) (s : State) : State :=
  { s with
    control := { part := .bypass, forced := false, clear := s.control.clear, config := defaultConfig, timestamp := 0,
                 prescaleCount := 0, causes := 0 }
    table := List.replicate 24 resetSlot
    forward := { s.forward with lastAccess := none }
    capture := { queue := [], nextSeq := 0, dropped := 0, pendingDrops := 0, held := none }
    arbiter := { s.arbiter with linkPassed := 0, sweepPassed := 0 }
    sweep := { state := .idle, record := none, block := none }
    link := l }

/-- A frame on the bits of LDI: length, sequence, ack sequence number, flags, code and arguments, closed by its CRC
(R186). -/
def frameBits (seq ack flags : Byte) (c : Command) : List Bool :=
  bytesBits (withCrc ([BitVec.ofNat 8 (7 + (commandArgs c).length), seq, ack, flags, BitVec.ofNat 8 (commandCode c)] ++
    commandArgs c))

/-- The conditions of R11 on a slot configuration whose mode and limit action are named. -/
abbrev stageable (slot : Nat) (m : Mode) (a : LimitAction) (f : SlotFields) : Prop :=
  f.base < 4194304 ∧ f.k ≤ maxExponent m ∧ (hasStoreRange m = false → f.kinds ≤ 2) ∧
    (hasStoreRange m = true → f.offset + 2 ^ f.k ≤ 4096) ∧ (m = .patch → f.lanes ≠ 0) ∧
    (a = .handoff → f.limit ≠ 0 → f.link < 24 ∧ f.link ≠ slot)

/-- The configuration that SLOT_STAGE writes (R12). -/
def stagedConfig (f : SlotFields) (m : Mode) (a : LimitAction) (st : SlotState) : SlotConfig :=
  { mode := m, k := f.k, base := f.base, kinds := f.kinds, offset := f.offset, lanes := f.lanes, limit := f.limit,
    action := a, link := f.link, capture := f.capture, alert := f.alert, mark := f.mark, initial := st }

/-- The boundary command that a link command passing the checks made at its taking waits as (R10, R29, R51, R170, R171);
SOFT_RESET, which also ends a hold (R173), is not among them. -/
def boundaryOf : Command → Option BoundaryCommand
  | .engage => some .engage
  | .disengage force => (onOff force).map .disengage
  | .tableCommit => some .tableCommit
  | .slotState slot state => if slot < 24 then (namedState state).map (.slotState slot) else none
  | .slotAck slot => if slot < 24 then some (.slotAck slot) else none
  | .storeWrite offset poison words =>
    if storeRange offset words.length then (onOff poison).map (fun p => .storeWrite offset p words) else none
  | _ => none

/-- The host has been answered, or its response is held (R39). -/
def respondedOrHeld (r : BusRequest) (resp : BusResponse) (f : Forwarding) : Prop :=
  (f.path = .idle ∧ f.given = some resp) ∨ f.path = .held ⟨r, resp⟩

/-- The slot reaches its limit at its next hit, and its limit action is HANDOFF (R83, R86). -/
def handsOff (s : State) (i : Nat) : Bool := reachesLimit (s.slot i) && (s.slot i).active.action == .handoff

/-- The slot's hand-off succeeds at the settle that counts `hits`: its target is ARMED, and no lower-numbered slot of the
settle hands off to the same target (R86 to R88). -/
def handsOver (s : State) (hits : List (Nat × Nat)) (i : Nat) : Bool :=
  handsOff s i && (s.slot (s.slot i).active.link).status.state == .armed &&
    !hits.any (fun p => decide (p.1 < i) && handsOff s p.1 && (s.slot p.1).active.link == (s.slot i).active.link)

/-- A word that the slot decided had a bad store word (R57, R58). -/
def decidedBad (d : Decided) (i : Nat) : Bool := d.words.any (fun w => w.decider == some i && faulted w)

/-- The capture unit after an offer: the record is admitted below 64 records, dropped under DROP, held under HOLD, and under
HOLD dropped where a SOFT_RESET waits (R96, R98, R99, R173). -/
abbrev Offered (r : BusRequest) (resp : BusResponse) (o : CaptureOffer) (s t : State) : Prop :=
  (s.capture.queue.length < 64 → t.capture = { s.capture with
    queue := s.capture.queue ++ [⟨s.capture.nextSeq, o, s.capture.pendingDrops⟩]
    nextSeq := s.capture.nextSeq + 1
    pendingDrops := 0 }) ∧
  (64 ≤ s.capture.queue.length → s.control.config.policy = .drop →
    hasCause t.control.causes .captureLoss = true ∧ t.capture = { s.capture with
      dropped := min (s.capture.dropped + 1) 65535
      pendingDrops := min (s.capture.pendingDrops + 1) 255 }) ∧
  (64 ≤ s.capture.queue.length → s.control.config.policy = .hold → softResetWaits s = false →
    t.forward.path = .held ⟨r, resp⟩ ∧
      t.capture = { s.capture with held := some ⟨o, s.control.config.holdLimit⟩ }) ∧
  (64 ≤ s.capture.queue.length → s.control.config.policy = .hold → softResetWaits s = true →
    t.forward.path = .idle ∧ hasCause t.control.causes .captureLoss = true ∧ t.capture = { s.capture with
      dropped := min (s.capture.dropped + 1) 65535
      pendingDrops := min (s.capture.pendingDrops + 1) 255
      held := none })

/-- What the settle of a request with a given outcome and response leaves of a state: the table, the pins and the causes as
the match unit's count of the counting set makes them, the shadow writes of a WRITE that ended OKAY in the store, a record
offered where a counting slot has its capture flag on, and the response given, with its last-access record, or held
(R37 to R39, R43, R66, R76, R92). -/
abbrev Settled (r : BusRequest) (d : Decided) (o : RequestOutcome) (resp : BusResponse) (s t : State) : Prop :=
  t.table = (accountSlots (requestKind r) s.control.timestamp d (countingSet (requestKind r) o d) s).table ∧
  t.pins = (accountSlots (requestKind r) s.control.timestamp d (countingSet (requestKind r) o d) s).pins ∧
  (∀ c, hasCause (accountSlots (requestKind r) s.control.timestamp d (countingSet (requestKind r) o d) s).control.causes c =
    true → hasCause t.control.causes c = true) ∧
  t.store = (if o = .okay then (shadowWrites d.snapshot (d.words.zip (requestWords r)) s).store else s.store) ∧
  (listedSlots d (countingSet (requestKind r) o d) = [] → t.capture = s.capture ∧ t.forward.path = .idle) ∧
  (listedSlots d (countingSet (requestKind r) o d) ≠ [] →
    Offered r resp (captureOffer r o d resp s.control.timestamp (listedSlots d (countingSet (requestKind r) o d))) s t) ∧
  respondedOrHeld r resp t.forward ∧
  (t.forward.path = .idle → t.forward.lastAccess = some (lastAccessOf r resp s.control.timestamp))

end Sys2Proof.Machine
end

