-- ==== Sys2Proof/Certificates/Slice0/Obligations.lean ====
section
/-! DEFINITION. The statements about the BX216 for the provers. -/

open Sys2Proof Sys2Proof.Machine

/-! ## The machine as a whole -/

/-- A step takes the command at the front of the queue and executes it on the state with the queue's rest; each row is
one whole step (95). No command touches the queue of waiting commands, so that the rest of the queue is what waits next. -/
def Obligations.StepRunsFrontCommand : Prop :=
  (∀ (c : Instr) (rest : List Instr) (s : State), s.pending = c :: rest → step s = exec c { s with pending := rest }) ∧
  (∀ (c : Instr) (s t : State), exec c s = .next t → t.pending = s.pending)

/-- A well-formed command whose response, if it brings one, fits the request outstanding answers a next state; the
stops of the model are the ones named: an offset outside the store (R45), a request that no bus carries (R23), a response
that does not fit its request (R25). That an event which the present state leaves no room for changes nothing is the model's
choice (notes/assumptions/8.md). -/
def Obligations.CommandsCompleteOrStopByName : Prop :=
  (∀ (c : Instr) (s : State), c.wellFormed = true → fitsOutstanding c s = true → ∃ t, exec c s = .next t) ∧
  (∀ offset data s, 4096 ≤ offset → exec (.storeUpset offset data) s = .fault .noSuchStoreWord) ∧
  (∀ (r : BusRequest) s, r.wellFormed = false → exec (.hostRequestAccept r) s = .refused .notABusRequest) ∧
  (∀ resp s, fitsOutstanding (.downstreamResponse resp) s = false →
    exec (.downstreamResponse resp) s = .refused .notABusResponse) ∧
  (∀ resp s, fitsOutstanding (.linkAccessResponse resp) s = false →
    exec (.linkAccessResponse resp) s = .refused .notABusResponse) ∧
  (∀ resp s, fitsOutstanding (.sweepBlockResponse resp) s = false →
    exec (.sweepBlockResponse resp) s = .refused .notABusResponse)

/-! ## Invariants of every step -/

/-- The patch store stays in its canonical form. -/
def Obligations.StoreStaysCanonical : Prop :=
  ∀ s t : State, StoreSound s → step s = .next t → StoreSound t

/-- The table keeps its 24 slots, and every staged and active configuration stays within the ranges of 01 section 1.2. -/
def Obligations.ConfigsStayInRange : Prop :=
  ∀ s t : State, TableSound s → ConfigsSound s → step s = .next t → TableSound t ∧ ConfigsSound t

/-- A slot whose limit action takes it out of LIVE is never LIVE at or above its limit (R83, R85, R86). -/
def Obligations.SlotsStayBelowTheirLimit : Prop :=
  ∀ s t : State, LimitsSound s → step s = .next t → LimitsSound t

/-- The capture queue holds at most 64 records, with consecutive sequence numbers ending below the next one, and the drop
counts stay within their ranges (R94, R96, R98). -/
def Obligations.CaptureQueueStaysConsecutive : Prop :=
  ∀ s t : State, CaptureSound s → step s = .next t → CaptureSound t

/-- Every constraint of a sound state is kept by every step: the port has at most one owner, to whom the request in
progress belongs (R113); a hold exists exactly while the path is HELD (R27, R99); the link's queues hold at most four and
at most one entry is reserved (R151, R158); a sweep's record and block in hand agree with its state (R128, R134). -/
def Obligations.SoundStatesStaySound : Prop :=
  ∀ s t : State, Sound s → step s = .next t → Sound t

/-- No step leaves a command waiting that may start: whatever completes a command, frees a response entry or brings a
command considers the head of the queue for its start in the same event (R156 to R158, R160). -/
def Obligations.NoStartableCommandWaits : Prop :=
  ∀ s t : State, StartSound s → step s = .next t → StartSound t

/-- The state after reset is sound, and no command waits in it. -/
def Obligations.ResetStateIsSound : Prop := Sound State.reset ∧ StartSound State.reset

/-! ## Reset, lines, upsets and time -/

/-- RESET becoming active puts every unit in its power-on state whatever was in progress: the table in the reset
configuration, STARTING with defaults, queues empty, an outstanding downstream request aborted. That the store's cells
stay, the levels of the lines, the request that the host presents, and that the response given is then none, are the model's
choices (notes/assumptions/5.md, 4.md, 12.md, 6.md). -/
def Obligations.PowerOnResetTakesEveryUnit : Prop :=
  ∀ s : State, exec .powerOnReset s = .next
    { pending := s.pending
      pins := { reset := true, fbyp := s.pins.fbyp, lsel := s.pins.lsel, markLeft := 0 }
      control :=
        { part := .starting, forced := false, clear := .running 0
          config := { prescale := 0, timeout := 256, patience := 8, policy := .drop, holdLimit := 1000,
                      threshold := 48, enable := 0 }
          timestamp := 0, prescaleCount := 0, causes := 0 }
      table := List.replicate 24
        { staged := resetConfig, dirty := false, active := resetConfig
          status := { state := .idle, count := 0, newest := none, prior := none, hit := false, lost := false,
                      handoffMissed := false, storeFault := false } }
      store := s.store
      forward := { path := .idle, lastAccess := none, presented := s.forward.presented, given := none }
      capture := { queue := [], nextSeq := 0, dropped := 0, pendingDrops := 0, held := none }
      arbiter := { owner := none, waitForward := false, waitLink := false, waitSweep := false, linkPassed := 0,
                   sweepPassed := 0 }
      port := { outstanding := none, aborted := s.port.outstanding.isSome }
      access := .idle
      sweep := { state := .idle, record := none, block := none }
      link := { commands := [], executing := none, responses := [], refusal := none, lastSent := .nothing,
                exchange := none } }

/-- An upset of a store word leaves the given data with bad parity at its offset and changes no other word and no other
unit. The completion of the start-up clear makes the part BYPASS, raises STARTED, and leaves every store word 0 with good
parity and everything else as before; an upset that falls into the clear is overwritten by it, the model's reading
(notes/assumptions/11.md) (R45, R48, R169). -/
def Obligations.UpsetAndStartupClear : Prop :=
  (∀ (s : State) (offset : Nat) (data : Word), StoreSound s → offset < 4096 →
    ∃ m : Store, exec (.storeUpset offset data) s = .next { s with store := m } ∧ Store.wf m = true ∧
      storeRead m offset = { data := data, bad := true } ∧ ∀ a, a ≠ offset → storeRead m a = storeRead s.store a) ∧
  (∀ (s : State) (n : Nat), s.pins.reset = false → s.control.clear = .running n →
    ∃ t : State, exec .startupClearComplete s = .next t ∧
      t = { s with
        store := t.store
        control := { s.control with part := .bypass, clear := .complete, causes := s.control.causes ||| causeBit .started } } ∧
      ∀ a, storeRead t.store a = { data := 0, bad := false })

/-- The release of RESET changes the line alone. FBYP becoming active forces an ACTIVE part to BYPASS at an IDLE path, as
one change, and otherwise changes its line alone; its release changes its line alone. A timestamp tick advances the counter
modulo 2^32, returns the prescale count to 0 and is counted by a hold timer, and does nothing while RESET is active; the end
of a MARK pulse makes MARK inactive; the expiry of a hold drops the held offer as under DROP and gives the held response
with its last-access record, at an IDLE path where an active FBYP acts (R168, R30, R172, R178, R99, R82, R101, R98, R43). -/
def Obligations.LinesAndTimeRows : Prop :=
  (∀ s : State, exec .resetRelease s = .next { s with pins := { s.pins with reset := false } }) ∧
  (∀ s : State, s.forward.path = .idle → s.control.part = .active →
    exec .fbypAssert s = .next { s with
      pins := { s.pins with fbyp := true }
      control := { s.control with part := .bypass, forced := true, causes := s.control.causes ||| causeBit .forcedBypass } }) ∧
  (∀ s : State, s.forward.path ≠ .idle ∨ s.control.part ≠ .active →
    exec .fbypAssert s = .next { s with pins := { s.pins with fbyp := true } }) ∧
  (∀ s : State, exec .fbypRelease s = .next { s with pins := { s.pins with fbyp := false } }) ∧
  (∀ s : State, s.pins.reset = false →
    exec .timestampTick s = .next { s with
      control := { s.control with timestamp := s.control.timestamp + 1, prescaleCount := 0 }
      capture := { s.capture with held := s.capture.held.map (fun o => { o with ticksLeft := o.ticksLeft - 1 }) } }) ∧
  (∀ s : State, s.pins.reset = true → exec .timestampTick s = .next s) ∧
  (∀ s : State, exec .markPulseEnd s = .next { s with pins := { s.pins with markLeft := 0 } }) ∧
  (∀ (s : State) (h : HeldRequest), s.forward.path = .held h →
    exec .holdExpiry s = .next (sampleFbyp { s with
      control := { s.control with causes := s.control.causes ||| causeBit .captureLoss }
      capture := { s.capture with
        held := none
        dropped := min (s.capture.dropped + 1) 65535
        pendingDrops := min (s.capture.pendingDrops + 1) 255 }
      forward := { s.forward with
        path := .idle
        lastAccess := some (lastAccessOf h.request h.response s.control.timestamp)
        given := some h.response } }))

/-- The model's choice (notes/assumptions/2.md): a step on an empty queue is one bus clock. It counts the MARK pulse down
and the prescale count up, the timestamp counter advancing at prescale + 1 clocks; a running start-up clear writes one word,
and its 4,096th completes it; an outstanding request counts one clock, and expires when its timeout in units of 16 clocks
has passed, the quiet clock's counts following; a hold counts the tick, and expires when no tick is left
(R82, R178, R48, R169, R35, R118, R99, R101). -/
def Obligations.IdleStepIsOneBusClock : Prop :=
  (∀ s : State, s.pending = [] → s.pins.reset = true → step s = .next s) ∧
  (∀ s : State, s.pending = [] → s.pins.reset = false → s.control.clear = .complete → s.port.outstanding = none →
    s.capture.held = none →
    step s = .next { s with
      pins := { s.pins with markLeft := s.pins.markLeft - 1 }
      control :=
        if s.control.config.prescale ≤ s.control.prescaleCount then
          { s.control with timestamp := s.control.timestamp + 1, prescaleCount := 0 }
        else { s.control with prescaleCount := s.control.prescaleCount + 1 } }) ∧
  (∀ (s : State) (n : Nat), s.pending = [] → s.pins.reset = false → StoreSound s → s.control.clear = .running n →
    s.port.outstanding = none → s.capture.held = none →
    (n < 4095 → ∃ m : Store, Store.wf m = true ∧ storeRead m n = { data := 0, bad := false } ∧
      (∀ a, a ≠ n → storeRead m a = storeRead s.store a) ∧
      step s = .next { s with
        store := m
        pins := { s.pins with markLeft := s.pins.markLeft - 1 }
        control := clocked { s.control with clear := .running (n + 1) } }) ∧
    (4095 ≤ n → ∃ t : State, step s = .next t ∧ (∀ a, storeRead t.store a = { data := 0, bad := false }) ∧
      t = { s with
        store := t.store
        pins := { s.pins with markLeft := s.pins.markLeft - 1 }
        control := clocked { s.control with
          part := .bypass, clear := .complete, causes := s.control.causes ||| causeBit .started } })) ∧
  (∀ (s : State) (d : Downstream), s.pending = [] → s.pins.reset = false → s.control.clear = .complete →
    s.port.outstanding = some d →
    (d.elapsed + 1 < d.timeout * 16 → s.capture.held = none →
      step s = .next { s with
        pins := { s.pins with markLeft := s.pins.markLeft - 1 }
        control := clocked s.control
        port := { s.port with outstanding := some { d with elapsed := d.elapsed + 1 } } }) ∧
    (d.timeout * 16 ≤ d.elapsed + 1 → ∃ t : State,
      exec .downstreamTimeoutExpiry { s with pins := { s.pins with markLeft := s.pins.markLeft - 1 } } = .next t ∧
      (t.capture.held = none → step s = .next { t with control := clocked t.control }))) ∧
  (∀ (s : State) (h : HeldRequest) (o : HeldOffer) (left : Nat), s.pending = [] → s.pins.reset = false →
    s.control.clear = .complete → s.port.outstanding = none → s.forward.path = .held h → s.capture.held = some o →
    left = (if s.control.config.prescale ≤ s.control.prescaleCount then o.ticksLeft - 1 else o.ticksLeft) →
    (left ≠ 0 →
      step s = .next { s with
        pins := { s.pins with markLeft := s.pins.markLeft - 1 }
        control := clocked s.control
        capture := { s.capture with held := some { o with ticksLeft := left } } }) ∧
    (left = 0 → ∃ t : State, step s = .next t ∧
      exec .holdExpiry { s with
        pins := { s.pins with markLeft := s.pins.markLeft - 1 }
        control := clocked s.control
        capture := { s.capture with held := some { o with ticksLeft := 0 } } } = .next t))

/-! ## Host requests -/

/-- A host request accepted while the part is not ACTIVE, or forced out of ACTIVE at its acceptance by FBYP, is forwarded
unchanged: at once at an idle port, otherwise it waits for its grant. Table, store, capture unit, link access unit and
link interface stay; a downstream WRITE is reported to the sweep engine (R28, R40, R114, R119). -/
def Obligations.RequestForwardedOutsideActive : Prop :=
  ∀ (s : State) (r : BusRequest), r.wellFormed = true → mayAccept s = true → s.forward.presented = none →
    (sampleFbyp s).control.part ≠ .active →
    ∃ t : State, exec (.hostRequestAccept r) s = .next t ∧
      t.control = (sampleFbyp s).control ∧ t.table = s.table ∧ t.store = s.store ∧ t.capture = s.capture ∧
      t.access = s.access ∧ t.link = s.link ∧ t.pins = s.pins ∧
      (if portIdle s.arbiter then
        t.forward = { s.forward with
          path := .outstanding ⟨r, (sampleFbyp s).control.part, none⟩, presented := none, given := none } ∧
        t.arbiter = { s.arbiter with owner := some .forward } ∧
        t.port = { s.port with outstanding := issued r s } ∧
        t.sweep = (match r with | .read _ _ => s.sweep | .write a ws => (reportWrite a ws s).sweep)
      else
        t.forward = { s.forward with
          path := .waitGrant ⟨r, (sampleFbyp s).control.part, none⟩, presented := none, given := none } ∧
        t.arbiter = { s.arbiter with waitForward := true } ∧ t.port = s.port ∧ t.sweep = s.sweep)

/-- In ACTIVE a malformed request is answered ERROR at once, with MALFORMED raised and no slot consulted; a request with a
word decided by GUARD is refused whole, with ERROR as its response, and settles as REFUSED: the slots that count
for it and the record offered are those of that outcome. Neither touches the port or the store
(R41, R43, R55, R62, R63, R76, R92). -/
def Obligations.RequestAnsweredErrorAtOnce : Prop :=
  ∀ (s : State) (r : BusRequest), r.wellFormed = true → mayAccept s = true → s.forward.presented = none →
    s.control.part = .active → s.pins.fbyp = false →
    (malformed r = true →
      exec (.hostRequestAccept r) s = .next { s with
        control := { s.control with causes := s.control.causes ||| causeBit .malformed }
        forward := { s.forward with
          path := .idle
          lastAccess := some (lastAccessOf r .error s.control.timestamp)
          presented := none
          given := some .error } }) ∧
    (malformed r = false →
      (decideRequest r s).words.any (decidedBy (takeSnapshot s.table) .guard) = true →
      ∃ t : State, exec (.hostRequestAccept r) s = .next t ∧ respondedOrHeld r .error t.forward ∧
        Settled r (decideRequest r s) .refused .error s t ∧
        t.port = s.port ∧ t.arbiter = s.arbiter ∧ t.store = s.store ∧ t.access = s.access ∧ t.link = s.link)

/-- The course of a READ in ACTIVE that no GUARD slot refuses: a bad SHADOW word fails it with no downstream request; a
word that needs memory sends the whole request downstream; otherwise the store answers it alone. The first settles as
STORE_FAULT and the last as OKAY, with the hits, the store-fault effects and the record offered of that outcome
(R33, R43, R53, R54, R57, R58, R76, R92). -/
def Obligations.ReadTakesItsCourse : Prop :=
  ∀ (s : State) (a n : Nat), (BusRequest.read a n).wellFormed = true → mayAccept s = true → s.forward.presented = none →
    s.control.part = .active → s.pins.fbyp = false → malformed (.read a n) = false →
    (decideRequest (.read a n) s).words.any (decidedBy (takeSnapshot s.table) .guard) = false →
    ∃ t : State, exec (.hostRequestAccept (.read a n)) s = .next t ∧ t.store = s.store ∧ t.access = s.access ∧
      t.link = s.link ∧
      (shadowFaulted (fetchWords s.store (decideRequest (.read a n) s)) = true →
        respondedOrHeld (.read a n) .error t.forward ∧
          Settled (.read a n) (fetchWords s.store (decideRequest (.read a n) s)) .storeFault .error s t ∧ t.port = s.port ∧ t.arbiter = s.arbiter ∧
          hasCause t.control.causes .storeParity = true) ∧
      (shadowFaulted (fetchWords s.store (decideRequest (.read a n) s)) = false →
        (fetchWords s.store (decideRequest (.read a n) s)).words.any (needsMemory (takeSnapshot s.table)) = true →
        t.table = s.table ∧ t.capture = s.capture ∧
        (portIdle s.arbiter = true →
          t.forward.path = .outstanding ⟨.read a n, .active, some (fetchWords s.store (decideRequest (.read a n) s))⟩ ∧
            t.port.outstanding = issued (.read a n) s ∧ t.arbiter.owner = some .forward) ∧
        (portIdle s.arbiter = false →
          t.forward.path = .waitGrant ⟨.read a n, .active, some (fetchWords s.store (decideRequest (.read a n) s))⟩ ∧
            t.port = s.port ∧ t.arbiter = { s.arbiter with waitForward := true })) ∧
      (shadowFaulted (fetchWords s.store (decideRequest (.read a n) s)) = false →
        (fetchWords s.store (decideRequest (.read a n) s)).words.any (needsMemory (takeSnapshot s.table)) = false →
        respondedOrHeld (.read a n)
            (.okay (composeRead (fetchWords s.store (decideRequest (.read a n) s)) [])) t.forward ∧
          Settled (.read a n) (fetchWords s.store (decideRequest (.read a n) s)) .okay
            (.okay (composeRead (fetchWords s.store (decideRequest (.read a n) s)) [])) s t ∧
          t.port = s.port ∧ t.arbiter = s.arbiter)

/-- The course of a WRITE in ACTIVE that no GUARD slot refuses: with an enabled passed lane it goes downstream with the
lane sets of the shadowed words emptied, and no store word changes yet; otherwise the downstream write is omitted, the
shadowed words are written to the store, the request settles as OKAY with the hits and the record offered of that outcome,
and the host is answered OKAY (R34, R43, R64 to R66, R76, R92). -/
def Obligations.WriteTakesItsCourse : Prop :=
  ∀ (s : State) (a : Nat) (ws : List WriteWord), (BusRequest.write a ws).wellFormed = true → mayAccept s = true →
    s.forward.presented = none → s.control.part = .active → s.pins.fbyp = false → malformed (.write a ws) = false →
    (decideRequest (.write a ws) s).words.any (decidedBy (takeSnapshot s.table) .guard) = false →
    ∃ t : State, exec (.hostRequestAccept (.write a ws)) s = .next t ∧ t.access = s.access ∧ t.link = s.link ∧
      (anyLane (passedWords (decideRequest (.write a ws) s) ws) = true →
        t.table = s.table ∧ t.store = s.store ∧ t.capture = s.capture ∧
        (portIdle s.arbiter = true →
          t.forward.path = .outstanding ⟨.write a ws, .active, some (decideRequest (.write a ws) s)⟩ ∧
            t.port.outstanding = issued (.write a (passedWords (decideRequest (.write a ws) s) ws)) s ∧
            t.arbiter.owner = some .forward) ∧
        (portIdle s.arbiter = false →
          t.forward.path = .waitGrant ⟨.write a ws, .active, some (decideRequest (.write a ws) s)⟩ ∧
            t.port = s.port ∧ t.arbiter = { s.arbiter with waitForward := true })) ∧
      (anyLane (passedWords (decideRequest (.write a ws) s) ws) = false →
        respondedOrHeld (.write a ws) (.okay []) t.forward ∧
          Settled (.write a ws) (decideRequest (.write a ws) s) .okay (.okay []) s t ∧ t.port = s.port ∧ t.arbiter = s.arbiter ∧
          t.store = (shadowWrites (takeSnapshot s.table) ((decideRequest (.write a ws) s).words.zip ws) s).store)

/-- A request that the port may not accept (RESET active, a request in flight, a command being carried out at the
boundary) waits at the port and changes nothing else; while one waits the port carries no other; and where the part may
accept, the request that waits is the one accepted, exactly as if it were presented then (R25, R28, R29, R168; that it is
the next HOST_REQUEST_ACCEPT that takes it, whatever that row's own operand, is the model's choice,
notes/assumptions/12.md). -/
def Obligations.RequestWaitsAtTheBusyPort : Prop :=
  ∀ (s : State) (r : BusRequest), r.wellFormed = true →
    (mayAccept s = false → s.forward.presented = none →
      exec (.hostRequestAccept r) s = .next { s with forward := { s.forward with presented := some r } }) ∧
    (∀ waiting : BusRequest, s.forward.presented = some waiting → waiting.wellFormed = true →
      (mayAccept s = false → exec (.hostRequestAccept r) s = .next s) ∧
      (mayAccept s = true → ∃ t : State, exec (.hostRequestAccept r) s = .next t ∧ t.forward.presented = none ∧
        exec (.hostRequestAccept waiting) { s with forward := { s.forward with presented := none } } = .next t))

/-- The last-access record holds the request's kind, first address and length, the first word as delivered to the host for a
READ answered OKAY and as presented for a WRITE, the status and the time. The memory's answer to a request forwarded
unchanged is the host's answer, with its last-access record; an ERROR
raises DOWN_ERROR. Table, store, capture unit and link interface stay, and with no other requester waiting the port is
free (R36, R40, R43, R117). -/
def Obligations.MemoryAnswersForwardedRequest : Prop :=
  (∀ (a n : Nat) (data : List Word) (ts : Word), lastAccessOf (.read a n) (.okay data) ts =
    { kind := .read, addr := a, len := n, firstWord := data.head?, okay := true, timestamp := ts }) ∧
  (∀ (a n : Nat) (ts : Word), lastAccessOf (.read a n) .error ts =
    { kind := .read, addr := a, len := n, firstWord := none, okay := false, timestamp := ts }) ∧
  (∀ (a : Nat) (ws : List WriteWord) (resp : BusResponse) (ts : Word), lastAccessOf (.write a ws) resp ts =
    { kind := .write, addr := a, len := ws.length, firstWord := ws.head?.map (·.data)
      okay := decide (resp ≠ .error), timestamp := ts }) ∧
  (∀ (s : State) (r : BusRequest) (p : PartState) (resp : BusResponse), s.forward.path = .outstanding ⟨r, p, none⟩ →
    answers r resp = true →
    ∃ t : State, exec (.downstreamResponse resp) s = .next t ∧
      t.forward = { s.forward with
        path := .idle
        lastAccess := some (lastAccessOf r resp s.control.timestamp)
        given := some resp } ∧
      t.table = s.table ∧ t.store = s.store ∧ t.capture = s.capture ∧ t.link = s.link ∧ t.pins = s.pins ∧
      (resp = .error → hasCause t.control.causes .downError = true) ∧
      (resp ≠ .error → t.control = (sampleFbyp s).control) ∧
      (NobodyWaits s.arbiter → t.port = { outstanding := none, aborted := false } ∧
        t.arbiter = { s.arbiter with owner := none } ∧ t.access = s.access ∧ t.sweep = s.sweep))

/-- The memory's answer to a request decided in ACTIVE: OKAY gives the host the words composed lane by lane, and a WRITE's
shadowed words reach the store; ERROR gives the host ERROR, raises DOWN_ERROR and leaves the store. The request settles
as OKAY or as MEM_ERROR, with the hits, the store-fault effects and the record offered of that outcome (R36 to R38, R43,
R53, R56, R66, R67, R76, R92). -/
def Obligations.MemoryAnswerSettlesRequest : Prop :=
  ∀ (s : State) (r : BusRequest) (p : PartState) (d : Decided), s.forward.path = .outstanding ⟨r, p, some d⟩ →
    (∃ t : State, exec (.downstreamResponse .error) s = .next t ∧ respondedOrHeld r .error t.forward ∧
      Settled r d .memError .error s t ∧
      hasCause t.control.causes .downError = true ∧ t.store = s.store ∧ t.link = s.link ∧
      (NobodyWaits s.arbiter → t.port = { outstanding := none, aborted := false } ∧ t.arbiter.owner = none)) ∧
    (∀ data : List Word, answers (downstreamRequest ⟨r, p, some d⟩) (.okay data) = true →
      ∃ t : State, exec (.downstreamResponse (.okay data)) s = .next t ∧
        respondedOrHeld r (okayResponse r d data) t.forward ∧ Settled r d .okay (okayResponse r d data) s t ∧
        t.store = (shadowWrites d.snapshot (d.words.zip (requestWords r)) s).store ∧ t.link = s.link ∧
        (NobodyWaits s.arbiter → t.port = { outstanding := none, aborted := false } ∧ t.arbiter.owner = none))

/-- The expiry of the downstream timeout of a host request: the request is aborted, DOWN_TIMEOUT is raised, the host is
answered ERROR (or its response is held), and no store word changes. A request decided in ACTIVE settles as TIMEOUT, with the
hits, the store-fault effects and the record offered of that outcome. The link interface stays, no startable command waiting
in it (R26, R35, R40, R43, R56, R67, R76, R92, R118, R158). -/
def Obligations.TimeoutEndsHostRequest : Prop :=
  ∀ (s : State) (f : Flight), s.forward.path = .outstanding f → s.arbiter.owner = some .forward → StartSound s →
    ∃ t : State, exec .downstreamTimeoutExpiry s = .next t ∧ respondedOrHeld f.request .error t.forward ∧
      hasCause t.control.causes .downTimeout = true ∧ t.port.aborted = true ∧ t.store = s.store ∧ t.link = s.link ∧
      (∀ d, f.decided = some d → Settled f.request d .timeout .error s t) ∧
      (f.decided = none → t.table = s.table ∧ t.capture = s.capture ∧ t.forward.path = .idle) ∧
      (NobodyWaits s.arbiter → t.port.outstanding = none ∧ t.arbiter.owner = none)

/-! ## The word decision and the settle -/

/-- A slot matches a word exactly when it is LIVE in the snapshot, its window of 2^k words holds the address, and it
applies to the kind of request. The lowest-numbered matching action slot decides a word, every matching WATCH slot observes
it, and the hit set holds each such slot once, in ascending order, with the lowest address it decided or observed
(R31, R32, R2, R3, R77). -/
def Obligations.WordDecisionAndHitSet : Prop :=
  (∀ (v : SnapSlot) (k : Kind) (a : Nat), matchesWord v k a = true ↔
    v.state = .live ∧ v.config.base ≤ a ∧ a < v.config.base + 2 ^ v.config.k ∧
      (v.config.mode = .patch → k = .read) ∧
      (v.config.mode = .watch ∨ v.config.mode = .guard →
        v.config.kinds = 2 ∨ (v.config.kinds = 0 ∧ k = .read) ∨ (v.config.kinds = 1 ∧ k = .write))) ∧
  (∀ (snap : List SnapSlot) (k : Kind) (a i : Nat), decidingSlot snap k a = some i ↔
    (i < 24 ∧ (snapAt snap i).config.mode ≠ .watch ∧ matchesWord (snapAt snap i) k a = true) ∧
      ∀ j < i, (snapAt snap j).config.mode = .watch ∨ matchesWord (snapAt snap j) k a = false) ∧
  (∀ (snap : List SnapSlot) (k : Kind) (a i : Nat), i ∈ observingSlots snap k a ↔
    i < 24 ∧ (snapAt snap i).config.mode = .watch ∧ matchesWord (snapAt snap i) k a = true) ∧
  (∀ (snap : List SnapSlot) (r : BusRequest) (i a : Nat),
    (i, a) ∈ hitSet (decideWords snap (requestKind r) (requestAddrs r)) ↔
      i < 24 ∧ a ∈ requestAddrs r ∧ takesPart i (decideWord snap (requestKind r) a) = true ∧
        ∀ b ∈ requestAddrs r, takesPart i (decideWord snap (requestKind r) b) = true → a ≤ b) ∧
  (∀ ds : List WordDecision, ((hitSet ds).map (·.1)).Pairwise (· < ·))

/-- A composed word takes each lane from its place: PATCH with a good store word the lanes of its mask from the store,
SHADOW with a good store word all four, every other word from memory (R53, R5). -/
def Obligations.LanesComposed : Prop :=
  (∀ (l : Lanes) (new old : Word) (n : Nat), n < 4 →
    (mixLanes l new old).extractLsb' (8 * n) 8 =
      if l.getLsbD n then new.extractLsb' (8 * n) 8 else old.extractLsb' (8 * n) 8) ∧
  (∀ (snap : List SnapSlot) (d : WordDecision) (c : SlotConfig) (w : StoreWord) (mem : Word),
    deciderConfig snap d = some c → d.fetched = some w →
    composeWord snap d mem =
      if w.bad = true then mem
      else if c.mode = .patch then mixLanes c.lanes w.data mem
      else if c.mode = .shadow then w.data
      else mem) ∧
  (∀ (snap : List SnapSlot) (d : WordDecision) (mem : Word), deciderConfig snap d = none → composeWord snap d mem = mem)

/-- A counting slot whose limit is not reached by this hit: the count rises by one, saturating, the newest hit becomes the
prior, the new record is the newest, HIT is set, and LOST is set with SLOT_LOST where HIT was set; SLOT_HIT and MARK
follow the slot's flags; every other slot stays (R78 to R83). -/
def Obligations.HitAccounted : Prop :=
  ∀ (s : State) (k : Kind) (ts : Word) (i a : Nat), TableSound s → i < 24 → reachesLimit (s.slot i) = false →
    ((accountHit k ts i a s).slot i).status =
      { (s.slot i).status with
        count := min ((s.slot i).status.count + 1) 65535
        newest := some ⟨ts, a, k⟩
        prior := (s.slot i).status.newest
        hit := true
        lost := (s.slot i).status.lost || (s.slot i).status.hit } ∧
    ((accountHit k ts i a s).slot i).active = (s.slot i).active ∧
    (∀ j, j ≠ i → (accountHit k ts i a s).slot j = s.slot j) ∧
    (accountHit k ts i a s).pins = (if (s.slot i).active.mark then { s.pins with markLeft := 4 } else s.pins) ∧
    (∀ c, hasCause (accountHit k ts i a s).control.causes c = (hasCause s.control.causes c ||
      (c == .slotLost && (s.slot i).status.hit) || (c == .slotHit && (s.slot i).active.alert))) ∧
    (accountHit k ts i a s).sweep = s.sweep ∧ (accountHit k ts i a s).store = s.store

/-- The hit that reaches the limit leaves the same trace as any other hit, raises SLOT_LIMIT and carries out the limit
action: NOTIFY leaves the slot LIVE, RETIRE and HANDOFF make it SPENT; a hand-off makes an ARMED target LIVE with count 0 and
reports it to the sweep engine, and one that finds its target not ARMED sets HANDOFF_MISSED, raises the cause and leaves the
target. No slot but the hit one and an ARMED target changes (R78 to R87, R89). -/
def Obligations.LimitActionCarriedOut : Prop :=
  ∀ (s : State) (k : Kind) (ts : Word) (i a : Nat) (armed : Bool), TableSound s → i < 24 →
    reachesLimit (s.slot i) = true → ((s.slot i).active.action = .handoff → (s.slot i).active.link ≠ i) →
    armed = ((s.slot i).active.action == .handoff && (s.slot (s.slot i).active.link).status.state == .armed) →
    ((accountHit k ts i a s).slot i).active = (s.slot i).active ∧
    ((accountHit k ts i a s).slot i).status =
      { (s.slot i).status with
        state := if (s.slot i).active.action = .notify then (s.slot i).status.state else .spent
        count := min ((s.slot i).status.count + 1) 65535
        newest := some ⟨ts, a, k⟩
        prior := (s.slot i).status.newest
        hit := true
        lost := (s.slot i).status.lost || (s.slot i).status.hit
        handoffMissed := (s.slot i).status.handoffMissed || ((s.slot i).active.action == .handoff && !armed) } ∧
    (∀ j, j ≠ i → (accountHit k ts i a s).slot j =
      if armed = true ∧ j = (s.slot i).active.link then
        { s.slot j with status := { (s.slot j).status with state := .live, count := 0 } }
      else s.slot j) ∧
    (accountHit k ts i a s).pins = (if (s.slot i).active.mark then { s.pins with markLeft := 4 } else s.pins) ∧
    (∀ c, hasCause (accountHit k ts i a s).control.causes c = (hasCause s.control.causes c ||
      (c == .slotLost && (s.slot i).status.hit) || (c == .slotHit && (s.slot i).active.alert) || c == .slotLimit ||
      (c == .handoffMissed && (s.slot i).active.action == .handoff && !armed))) ∧
    (accountHit k ts i a s).sweep =
      (if armed then (reportHandoff (s.slot (s.slot i).active.link).active s).sweep else s.sweep) ∧
    (accountHit k ts i a s).store = s.store

/-- The settle as a whole. The counting set is the hit set, less the SHADOW slots of a WRITE refused by GUARD, ascending and
each slot once. The match unit counts every slot of such a set once: each keeps the trace of one hit, is SPENT where its
limit retires it or hands off or a PATCH word of its own was bad, and is flagged STORE_FAULT where a word it decided was bad.
Of several slots that hand off to one ARMED target the lowest succeeds, and it becomes LIVE with count 0, reported to the
sweep engine; every other hand-off is missed. No other slot changes, and causes and MARK follow the slots counted. A settle
of any outcome hands over that set, writes the shadowed words where it is OKAY, and offers its record; the memory's OKAY
settles so (R37 to R39, R57 to R59, R63, R66, R76 to R89, R92). -/
def Obligations.SettleCountsEverySlotOnce : Prop :=
  (∀ (k : Kind) (o : RequestOutcome) (d : Decided),
    ((countingSet k o d).map (·.1)).Pairwise (· < ·) ∧
    ∀ p, p ∈ countingSet k o d ↔
      p ∈ hitSet d.words ∧ ¬ (k = .write ∧ o = .refused ∧ (snapAt d.snapshot p.1).config.mode = .shadow)) ∧
  (∀ (k : Kind) (ts : Word) (d : Decided) (hits : List (Nat × Nat)) (s : State), TableSound s →
    (hits.map (·.1)).Pairwise (· < ·) → (∀ p ∈ hits, p.1 < 24 ∧ (s.slot p.1).status.state = .live) →
    (∀ p ∈ hits, (accountSlots k ts d hits s).slot p.1 = { s.slot p.1 with
      status := { (s.slot p.1).status with
        state :=
          if (reachesLimit (s.slot p.1) = true ∧ (s.slot p.1).active.action ≠ .notify) ∨
            (decidedBad d p.1 = true ∧ (snapAt d.snapshot p.1).config.mode = .patch) then .spent else .live
        count := min ((s.slot p.1).status.count + 1) 65535
        newest := some ⟨ts, p.2, k⟩
        prior := (s.slot p.1).status.newest
        hit := true
        lost := (s.slot p.1).status.lost || (s.slot p.1).status.hit
        handoffMissed := (s.slot p.1).status.handoffMissed || (handsOff s p.1 && !handsOver s hits p.1)
        storeFault := (s.slot p.1).status.storeFault || decidedBad d p.1 } }) ∧
    (∀ j, j ∉ hits.map (·.1) → (accountSlots k ts d hits s).slot j =
      if hits.any (fun p => handsOver s hits p.1 && (s.slot p.1).active.link == j) = true then
        { s.slot j with status := { (s.slot j).status with state := .live, count := 0 } }
      else s.slot j) ∧
    (∀ c, hasCause (accountSlots k ts d hits s).control.causes c = (hasCause s.control.causes c ||
      hits.any (fun p => (c == .slotLost && (s.slot p.1).status.hit) || (c == .slotHit && (s.slot p.1).active.alert) ||
        (c == .slotLimit && reachesLimit (s.slot p.1)) ||
        (c == .handoffMissed && handsOff s p.1 && !handsOver s hits p.1) || (c == .storeParity && decidedBad d p.1)))) ∧
    accountSlots k ts d hits s = { s with
      table := (accountSlots k ts d hits s).table
      pins := if hits.any (fun p => (s.slot p.1).active.mark) = true then { s.pins with markLeft := 4 } else s.pins
      control := { s.control with causes := (accountSlots k ts d hits s).control.causes }
      sweep := (hits.foldl (fun u p =>
        if handsOver s hits p.1 = true then reportHandoff (s.slot (s.slot p.1).active.link).active u else u) s).sweep }) ∧
  (∀ (r : BusRequest) (d : Decided) (o : RequestOutcome) (resp : BusResponse) (s : State),
    Settled r d o resp s (settle r d o resp s)) ∧
  (∀ (s : State) (r : BusRequest) (p : PartState) (d : Decided) (data : List Word),
    s.forward.path = .outstanding ⟨r, p, some d⟩ → answers (downstreamRequest ⟨r, p, some d⟩) (.okay data) = true →
    ∃ t : State, exec (.downstreamResponse (.okay data)) s = .next t ∧ Settled r d .okay (okayResponse r d data) s t)

/-- On the bus a shadowed word keeps its place with an empty lane set and every other word stays as the host gave it; at
the settle the enabled lanes of each shadowed word replace those lanes of its store word, whose parity becomes good, in
ascending address order, so that of two words at one store word the later one's lanes stand; a word with an empty lane set
changes nothing. Each is reported to the sweep engine (R64, R66, R46, R70). -/
def Obligations.ShadowedWordsGoToTheStore : Prop :=
  (∀ (d : Decided) (ws : List WriteWord) (i : Nat) (w : WriteWord), ws[i]? = some w →
    (passedWords d ws)[i]? = some
      (if (d.words[i]?).any (decidedBy d.snapshot .shadow) then { w with lanes := 0 } else w)) ∧
  (∀ (d : Decided) (ws : List WriteWord), (passedWords d ws).length = ws.length) ∧
  (∀ (s : State) (snap : List SnapSlot) (d : WordDecision) (c : SlotConfig) (w : WriteWord), StoreSound s →
    deciderConfig snap d = some c → c.mode = .shadow → storeIndex c d.addr < 4096 →
    (w.lanes ≠ 0 → ∀ a, storeRead (shadowWrites snap [(d, w)] s).store a =
      if a = storeIndex c d.addr then
        { data := mixLanes w.lanes w.data (storeRead s.store (storeIndex c d.addr)).data, bad := false }
      else storeRead s.store a) ∧
    (w.lanes = 0 → shadowWrites snap [(d, w)] s = s) ∧
    (shadowWrites snap [(d, w)] s).sweep = (reportShadowWrite (storeIndex c d.addr) w.lanes s).sweep) ∧
  (∀ (s : State) (snap : List SnapSlot) (ws : List (WordDecision × WriteWord)), StoreSound s →
    StoreSound (shadowWrites snap ws s) ∧
    ∀ a < 4096, storeRead (shadowWrites snap ws s).store a =
      ws.foldl (fun old p => match deciderConfig snap p.1 with
        | some c =>
          if c.mode = .shadow ∧ storeIndex c p.1.addr = a ∧ p.2.lanes ≠ 0 then
            { data := mixLanes p.2.lanes p.2.data old.data, bad := false }
          else old
        | none => old) (storeRead s.store a))

/-! ## Arbiter and capture unit -/

/-- The choice of a grant decision: LINK at its patience, then SWEEP at its patience, then the order FORWARD, LINK, SWEEP;
patience 0 never overtakes. At a decision the requester chosen becomes the port owner with its count at 0, and the count of
each other one of LINK and SWEEP rises by one where it waits, saturating at 255 (R115, R116). -/
def Obligations.GrantDecisionOrder : Prop :=
  (∀ (p : Nat) (a : Arbiter), p ≠ 0 → a.waitLink = true → p ≤ a.linkPassed → chooseRequester p a = some .link) ∧
  (∀ (p : Nat) (a : Arbiter), p ≠ 0 → a.waitSweep = true → p ≤ a.sweepPassed →
    (a.waitLink = false ∨ a.linkPassed < p) → chooseRequester p a = some .sweep) ∧
  (∀ (p : Nat) (a : Arbiter), (p = 0 ∨ ((a.waitLink = false ∨ a.linkPassed < p) ∧ (a.waitSweep = false ∨ a.sweepPassed < p))) →
    chooseRequester p a =
      if a.waitForward = true then some .forward else if a.waitLink = true then some .link
      else if a.waitSweep = true then some .sweep else none) ∧
  (∀ (s : State) (b : Bool) (r : Requester), chooseRequester s.control.config.patience s.arbiter = some r →
    (freePort b s).arbiter.owner = some r ∧
      (freePort b s).arbiter.linkPassed =
        (if r = .link then 0 else if s.arbiter.waitLink = true then min (s.arbiter.linkPassed + 1) 255
         else s.arbiter.linkPassed) ∧
      (freePort b s).arbiter.sweepPassed =
        (if r = .sweep then 0 else if s.arbiter.waitSweep = true then min (s.arbiter.sweepPassed + 1) 255
         else s.arbiter.sweepPassed))

/-- What the capture unit does with an offer: below 64 records it is admitted with the next sequence number and the
pending-drops count, and the response is given; at 64 it is dropped under DROP, and held with its response under HOLD
unless a SOFT_RESET waits. The offer describes the request as it settled: its listed slots, the lowest of their first
matched addresses as the key address with the word delivered or presented there, patched where a READ fetched a good word
for a PATCH slot, shadowed where a SHADOW slot decided a word (R92, R93, R95, R96, R98, R99). -/
def Obligations.CaptureOfferTaken : Prop :=
  (∀ (s : State) (r : BusRequest) (resp : BusResponse) (o : CaptureOffer),
    (s.capture.queue.length < 64 →
      (takeOffer r resp o s).capture = { s.capture with
        queue := s.capture.queue ++ [⟨s.capture.nextSeq, o, s.capture.pendingDrops⟩]
        nextSeq := s.capture.nextSeq + 1
        pendingDrops := 0 } ∧
      (takeOffer r resp o s).forward.path = .idle ∧ (takeOffer r resp o s).forward.given = some resp) ∧
    (64 ≤ s.capture.queue.length → s.control.config.policy = .drop →
      (takeOffer r resp o s).capture = { s.capture with
        dropped := min (s.capture.dropped + 1) 65535
        pendingDrops := min (s.capture.pendingDrops + 1) 255 } ∧
      hasCause (takeOffer r resp o s).control.causes .captureLoss = true ∧
      (takeOffer r resp o s).forward.path = .idle ∧ (takeOffer r resp o s).forward.given = some resp) ∧
    (64 ≤ s.capture.queue.length → s.control.config.policy = .hold → softResetWaits s = false →
      (takeOffer r resp o s).capture = { s.capture with held := some ⟨o, s.control.config.holdLimit⟩ } ∧
      (takeOffer r resp o s).forward = { s.forward with path := .held ⟨r, resp⟩ } ∧
      (takeOffer r resp o s).control = s.control)) ∧
  (∀ (r : BusRequest) (o : RequestOutcome) (d : Decided) (resp : BusResponse) (ts : Word) (listed : List (Nat × Nat))
    (x : CaptureOffer), x = captureOffer r o d resp ts listed → listed ≠ [] →
    x.timestamp = ts ∧ x.kind = requestKind r ∧ x.addr = requestAddr r ∧ x.len = requestLen r ∧ x.outcome = o ∧
    x.slots = listed.map (·.1) ∧ x.keyAddr ∈ listed.map (·.2) ∧ (∀ p ∈ listed, x.keyAddr ≤ p.2) ∧
    (x.patched = true ↔ requestKind r = .read ∧
      ∃ w ∈ d.words, decidedBy d.snapshot .patch w = true ∧ ∃ m, w.fetched = some m ∧ m.bad = false) ∧
    (x.shadowed = true ↔ ∃ w ∈ d.words, decidedBy d.snapshot .shadow w = true) ∧
    (∀ a n, r = .read a n → x.keyLanes = none ∧ (resp = .error → x.keyData = none) ∧
      ∀ data, resp = .okay data → x.keyData = data[x.keyAddr - a]?) ∧
    (∀ a ws, r = .write a ws → x.keyData = (ws[x.keyAddr - a]?).map (·.data) ∧
      x.keyLanes = (ws[x.keyAddr - a]?).map (·.lanes)))

/-- CAPTURE_ACK removes the named record and all older ones and answers their number and the level left; a number that no
record has removes nothing and answers NOT_FOUND with the level. CAPTURE_FLUSH removes every record. Where the path is HELD
and a record is removed, the held offer is admitted after the removal and the held response is given
(R106, R108, R100, R96). -/
def Obligations.CaptureRecordsRemoved : Prop :=
  (∀ (s : State) (q : Byte) (n : Nat), Ready s → (∀ x ∈ s.capture.queue, x.sequence ≠ BitVec.ofNat 16 n) →
    exec (.captureAck q n) s = .next (answered q .notFound (natBytes 1 s.capture.queue.length) s)) ∧
  (∀ (s : State) (q : Byte) (n : Nat) (older newer : List CaptureRecord) (x : CaptureRecord), Ready s →
    s.capture.queue = older ++ x :: newer → x.sequence = BitVec.ofNat 16 n →
    (∀ y ∈ older, y.sequence ≠ BitVec.ofNat 16 n) → isHeld s.forward.path = false →
    exec (.captureAck q n) s = .next
      (answered q .ok (natBytes 1 (older.length + 1) ++ natBytes 1 newer.length)
        (checkLevel { s with capture := { s.capture with queue := newer } }))) ∧
  (∀ (s : State) (q : Byte) (n : Nat) (older newer : List CaptureRecord) (x : CaptureRecord) (h : HeldRequest)
    (o : HeldOffer), Ready s → s.capture.queue = older ++ x :: newer → x.sequence = BitVec.ofNat 16 n →
    (∀ y ∈ older, y.sequence ≠ BitVec.ofNat 16 n) → s.forward.path = .held h → s.capture.held = some o →
    ∃ t : State, exec (.captureAck q n) s = .next t ∧
      t.capture = { s.capture with
        queue := newer ++ [⟨s.capture.nextSeq, o.offer, s.capture.pendingDrops⟩]
        nextSeq := s.capture.nextSeq + 1
        pendingDrops := 0
        held := none } ∧
      t.forward = { s.forward with
        path := .idle
        lastAccess := some (lastAccessOf h.request h.response s.control.timestamp)
        given := some h.response } ∧
      t.link = (answered q .ok (natBytes 1 (older.length + 1) ++ natBytes 1 newer.length) s).link ∧
      t.table = s.table ∧ t.store = s.store ∧ t.port = s.port ∧ t.sweep = s.sweep) ∧
  (∀ (s : State) (q : Byte), Ready s → isHeld s.forward.path = false →
    exec (.captureFlush q) s = .next
      (answered q .ok (natBytes 1 s.capture.queue.length)
        (checkLevel { s with capture := { s.capture with queue := [] } }))) ∧
  (∀ (s : State) (q : Byte) (h : HeldRequest) (o : HeldOffer), Ready s → s.capture.queue ≠ [] →
    s.forward.path = .held h → s.capture.held = some o →
    ∃ t : State, exec (.captureFlush q) s = .next t ∧
      t.capture = { s.capture with
        queue := [⟨s.capture.nextSeq, o.offer, s.capture.pendingDrops⟩]
        nextSeq := s.capture.nextSeq + 1
        pendingDrops := 0
        held := none } ∧
      t.forward = { s.forward with
        path := .idle
        lastAccess := some (lastAccessOf h.request h.response s.control.timestamp)
        given := some h.response } ∧
      t.link = (answered q .ok (natBytes 1 s.capture.queue.length) s).link ∧
      hasCause t.control.causes .captureLoss = hasCause s.control.causes .captureLoss ∧
      t.table = s.table ∧ t.store = s.store ∧ t.port = s.port ∧ t.sweep = s.sweep)

/-! ## Link interface -/

/-- While the part is STARTING every command except NOP, PING, PART_STATUS and ALERT_STATUS is answered STARTING and
changes nothing else; STORE_READ answers it before RANGE by the model's reading (notes/assumptions/10.md). A code that names
no command is answered UNKNOWN with no payload, in every part state, and changes nothing else (R159, R167). -/
def Obligations.StartingAndUnknownAnswered : Prop :=
  (∀ (i : Instr) (q : Byte) (c : Command) (s : State), i.command = some (q, c) →
    c ≠ .nop → (∀ echo, c ≠ .ping echo) → c ≠ .partStatus → c ≠ .alertStatus →
    LinkReady s → s.control.part = .starting → exec i s = .next (answered q .starting [] s)) ∧
  (∀ (s : State) (q : Byte) (code : Nat) (args : List Byte), LinkReady s → assignedCodes.contains code = false →
    exec (.unknownCommand q code args) s = .next (answered q .unknown [] s))

/-- A command that arrives at a link that is not ready: refused FULL at a full command queue, with its refusal item in the
holding and LINK_REFUSAL raised; queued at the tail behind another command or where no entry is free; ignored while RESET
is active. That a command's row is the arrival of its frame is the model's choice (notes/assumptions/7.md)
(R150, R154, R155, R157, R158). -/
def Obligations.CommandsQueuedOrRefused : Prop :=
  ∀ (i : Instr) (q : Byte) (c : Command) (s : State), i.command = some (q, c) →
    (s.pins.reset = true → exec i s = .next s) ∧
    (s.pins.reset = false → s.link.commands.length < 4 → (s.link.commands ≠ [] ∨ 4 ≤ s.link.responses.length) →
      exec i s = .next { s with
        link := { s.link with commands := s.link.commands ++ [⟨q, commandCode c, commandArgs c⟩] } }) ∧
    (s.pins.reset = false → 4 ≤ s.link.commands.length →
      ∃ t : State, exec i s = .next t ∧ t.link.refusal = some ⟨q, .full, s.link.refusal.isSome⟩ ∧
        t.link.commands = s.link.commands ∧ t.link.responses = s.link.responses ∧
        t.control = { s.control with causes := s.control.causes ||| causeBit .linkRefusal } ∧
        t.table = s.table ∧ t.store = s.store ∧ t.forward = s.forward ∧ t.capture = s.capture)

/-- Decode of encode: the code and the argument bytes of every well-formed link command are read back as that command
(R188, R189, R184). -/
def Obligations.CommandBytesReadBack : Prop :=
  ∀ c : Command, c.wellFormed = true → parseCommand (commandCode c) (commandArgs c) = .ok c

/-- COMMAND_START starts a queued command exactly as its row does at a ready link; where nothing may start it changes
nothing, which is the model's choice for a row with nothing to do (notes/assumptions/8.md). A head that completes at once has
the next command considered in the same event, against the part as it left it; one that waits keeps the commands behind it.
That a command's row also starts it at a ready link is the model's choice (notes/assumptions/7.md) (R158 to R160). -/
def Obligations.CommandStartRunsTheHead : Prop :=
  (∀ (i : Instr) (q : Byte) (c : Command) (s : State), i.command = some (q, c) → i.wellFormed = true → LinkReady s →
    ∃ t : State, exec i s = .next t ∧
      exec .commandStart { s with link := { s.link with commands := [⟨q, commandCode c, commandArgs c⟩] } } = .next t) ∧
  (∀ s : State, mayStart s = false → exec .commandStart s = .next s) ∧
  (∀ (i : Instr) (q : Byte) (c : Command) (s t : State) (rest : List QueuedCommand), i.command = some (q, c) →
    i.wellFormed = true → LinkReady s → exec i s = .next t →
    (t.link.executing = none →
      exec .commandStart { s with link := { s.link with commands := ⟨q, commandCode c, commandArgs c⟩ :: rest } } =
        exec .commandStart { t with link := { t.link with commands := rest } }) ∧
    (t.link.executing ≠ none →
      exec .commandStart { s with link := { s.link with commands := ⟨q, commandCode c, commandArgs c⟩ :: rest } } =
        .next { t with link := { t.link with commands := ⟨q, commandCode c, commandArgs c⟩ :: rest } }))

/-- The bits of a frame on LDI bring its command to the queue: an intact frame, followed by any further bits, joins the
command queue with its sequence, code and arguments, the exchange is over, and a frame shifted out whole becomes the item
last sent; the head of the queue is then considered for its start, in the same event. With a valid acknowledgement that names
the item last sent, that item (the refusal, or the oldest held response) leaves; the item last sent is then none, or the refusal that the same
exchange has delivered. With
the acknowledgement not valid, no item last sent, or another number, nothing is removed. At a ready link the frame has the
effect of its command's row (R150, R153, R154, R156 to R158, R186). -/
def Obligations.WireFrameQueuesItsCommand : Prop :=
  (∀ (s : State) (x : Exchange) (q ack flags : Byte) (c : Command) (extra : List Bool), c.wellFormed = true →
    s.link.exchange = some x → x.taken = [] → x.shifted = 0 → s.link.commands.length < 4 →
    (flags.getLsbD 0 = false ∨ s.link.lastSent = .nothing ∨
      (∃ f, s.link.lastSent = .refusal ∧ s.link.refusal = some f ∧ f.seq ≠ ack) ∨
      (∃ r rest, s.link.lastSent = .response ∧ s.link.responses = .held r :: rest ∧ r.seq ≠ ack)) →
    ∃ t : State, exec (.exchangeEnd (frameBits q ack flags c ++ extra)) s = .next t ∧
      exec .commandStart { s with
        pins := { s.pins with lsel := false }
        link := { s.link with
          commands := s.link.commands ++ [⟨q, commandCode c, commandArgs c⟩]
          lastSent :=
            if 8 * x.frame.length ≤ 8 * (7 + (commandArgs c).length) + extra.length then x.chosen else s.link.lastSent
          exchange := none } } = .next t) ∧
  (∀ (s : State) (x : Exchange) (q flags : Byte) (r : Response) (rest : List Entry) (c : Command), c.wellFormed = true →
    s.link.exchange = some x → x.taken = [] → x.shifted = 0 → s.link.commands.length < 4 →
    flags.getLsbD 0 = true → s.link.lastSent = .response → s.link.responses = .held r :: rest →
    ∃ t : State, exec (.exchangeEnd (frameBits q r.seq flags c)) s = .next t ∧
      exec .commandStart { s with
        pins := { s.pins with lsel := false }
        link := { s.link with
          commands := s.link.commands ++ [⟨q, commandCode c, commandArgs c⟩]
          responses := rest
          lastSent :=
            if x.chosen ≠ .response ∧ 8 * x.frame.length ≤ 8 * (7 + (commandArgs c).length) then x.chosen else .nothing
          exchange := none } } = .next t) ∧
  (∀ (s : State) (x : Exchange) (q flags : Byte) (f : RefusalItem) (c : Command), c.wellFormed = true →
    s.link.exchange = some x → x.taken = [] → x.shifted = 0 → x.chosen = .refusal → s.link.commands.length < 4 →
    flags.getLsbD 0 = true → s.link.lastSent = .refusal → s.link.refusal = some f →
    ∃ t : State, exec (.exchangeEnd (frameBits q f.seq flags c)) s = .next t ∧
      exec .commandStart { s with
        pins := { s.pins with lsel := false }
        link := { s.link with
          commands := s.link.commands ++ [⟨q, commandCode c, commandArgs c⟩]
          refusal := none
          lastSent := .nothing
          exchange := none } } = .next t) ∧
  (∀ (s : State) (x : Exchange) (i : Instr) (q ack : Byte) (c : Command), i.command = some (q, c) →
    i.wellFormed = true → c.wellFormed = true → LinkReady s → s.link.exchange = some x → x.taken = [] → x.shifted = 0 →
    ∃ t : State, exec (.exchangeEnd (frameBits q ack 0 c)) s = .next t ∧
      exec i { s with
        pins := { s.pins with lsel := false }
        link := { s.link with
          lastSent := if 8 * x.frame.length ≤ 8 * (7 + (commandArgs c).length) then x.chosen else s.link.lastSent
          exchange := none } } = .next t)

/-- A frame that fails a check makes a refusal item with the status of the first check failed and the frame's second byte
as its echo, takes the holding, raises LINK_REFUSAL, and brings no command and acts on no
acknowledgement. No command starts at it, where none waits that may start (R154, R155, R158). -/
def Obligations.FaultyFrameRefused : Prop :=
  ∀ (s : State) (x : Exchange) (bits : List Bool) (bs : List Byte) (st : Status), s.link.exchange = some x →
    StartSound s → x.taken = [] → bs = bitsBytes (bits.take 512) → bs ≠ [] →
    ((lengthField bs < 7 ∨ 64 < lengthField bs) ∧ st = .oversize ∨
      (7 ≤ lengthField bs ∧ lengthField bs ≤ 64) ∧
        (bs.length < lengthField bs ∧ st = .short ∨
          lengthField bs ≤ bs.length ∧
            (crcField bs ≠ (crc16 (frameBody bs)).toNat ∧ st = .checkFail ∨
              crcField bs = (crc16 (frameBody bs)).toNat ∧ 4 ≤ s.link.commands.length ∧ st = .full))) →
    ∃ t : State, exec (.exchangeEnd bits) s = .next t ∧
      t.link.refusal = some ⟨bs.getD 1 0, st, s.link.refusal.isSome⟩ ∧ t.link.commands = s.link.commands ∧
      t.link.responses = s.link.responses ∧ t.link.executing = s.link.executing ∧ t.link.exchange = none ∧
      t.control = { s.control with causes := s.control.causes ||| causeBit .linkRefusal } ∧
      t.table = s.table ∧ t.store = s.store ∧ t.forward = s.forward ∧ t.capture = s.capture ∧ t.sweep = s.sweep

/-- At the assertion of LSEL the refusal is chosen before the oldest held response, and the empty frame when neither is
there; the frame carries the item's echo, status, flags and payload with the alert-pending flag, closed by its CRC.
ALERT is active exactly while a cause is both pending and enabled, outside RESET (R152, R180, R187). -/
def Obligations.ExchangeSendsTheOldestItem : Prop :=
  (∀ s : State, s.alert = true ↔ s.pins.reset = false ∧
    ∃ c, hasCause s.control.causes c = true ∧ hasCause s.control.config.enable c = true) ∧
  (∀ s : State, s.pins.reset = false → s.pins.lsel = false →
    (∀ r, s.link.refusal = some r →
      exec .lselAssert s = .next { s with
        pins := { s.pins with lsel := true }
        link := { s.link with exchange := some (⟨.refusal, withCrc [6, r.seq, statusCode r.status, flagByte [true, r.earlierLost, false, s.alert]], 0, []⟩ : Exchange) } }) ∧
    (∀ r rest, s.link.refusal = none → heldResponses s.link.responses = r :: rest →
      exec .lselAssert s = .next { s with
        pins := { s.pins with lsel := true }
        link := { s.link with exchange := some (⟨.response, withCrc ([BitVec.ofNat 8 (6 + r.payload.length), r.seq, statusCode r.status,
            flagByte [false, false, false, s.alert]] ++ r.payload), 0, []⟩ : Exchange) } }) ∧
    (s.link.refusal = none → heldResponses s.link.responses = [] →
      exec .lselAssert s = .next { s with
        pins := { s.pins with lsel := true }
        link := { s.link with exchange := some (⟨.nothing, withCrc [6, 0, 0xFF, flagByte [false, false, true, s.alert]], 0, []⟩ : Exchange) } }))

/-! ## Boundary commands -/

/-- A boundary command that has passed its first checks waits where a request is in flight, changing the link interface
alone; carried out by BOUNDARY_COMMAND_EXECUTION at an IDLE path, as a SOFT_RESET that waited is too, it has exactly the
effect it has when it is taken there, and its completion considers the command behind it for its start; while the path is not
IDLE nothing is carried out (R10, R29, R160, R173). -/
def Obligations.BoundaryCommandsWaitAndRun : Prop :=
  (∀ (i : Instr) (q : Byte) (c : Command) (b : BoundaryCommand) (s : State), i.command = some (q, c) →
    boundaryOf c = some b → Ready s → s.forward.path ≠ .idle →
    exec i s = .next { s with link := waitingLink q c (.boundary b) s.link }) ∧
  (∀ (i : Instr) (q : Byte) (c : Command) (b : BoundaryCommand) (s : State), i.command = some (q, c) →
    (boundaryOf c = some b ∨ c = .softReset ∧ b = .softReset) → Ready s → s.forward.path = .idle →
    ∃ t : State, exec i s = .next t ∧
      exec .boundaryCommandExecution { s with link := waitingLink q c (.boundary b) s.link } = .next t ∧
      ∀ rest : List QueuedCommand,
        (t.link.executing = none →
          exec .boundaryCommandExecution { s with link := { waitingLink q c (.boundary b) s.link with
            commands := ⟨q, commandCode c, commandArgs c⟩ :: rest } } =
          exec .commandStart { t with link := { t.link with commands := rest } }) ∧
        (t.link.executing ≠ none →
          exec .boundaryCommandExecution { s with link := { waitingLink q c (.boundary b) s.link with
            commands := ⟨q, commandCode c, commandArgs c⟩ :: rest } } =
          .next { t with link := { t.link with commands := ⟨q, commandCode c, commandArgs c⟩ :: rest } })) ∧
  (∀ s : State, s.forward.path ≠ .idle → StartSound s → exec .boundaryCommandExecution s = .next s)

/-- TABLE_COMMIT at a boundary: a dirty slot staged PATCH or SHADOW and LIVE over a running FILL's destination refuses it
whole with CONFLICT and the lowest such slot; otherwise every dirty slot takes its staged configuration with a cleared
status and its initial state, every dirty mark is cleared, and the answer is the number of dirty slots (R15, R16). -/
def Obligations.TableCommitted : Prop :=
  ∀ (s : State) (q : Byte), Ready s → s.forward.path = .idle →
    (∀ i o n, fillDestination s.sweep = some (o, n) → i < 24 → commitConflicts (s.slot i) o n = true →
      (∀ j < i, commitConflicts (s.slot j) o n = false) →
      exec (.tableCommit q) s = .next (answered q .conflict (natBytes 1 i) s)) ∧
    ((∀ o n, fillDestination s.sweep = some (o, n) → ∀ i < 24, commitConflicts (s.slot i) o n = false) →
      exec (.tableCommit q) s = .next (answered q .ok (natBytes 1 (dirtySlots s.table).length) { s with
        table := s.table.map (fun x =>
          if x.dirty then
            { staged := x.staged, dirty := false, active := x.staged
              status := { state := x.staged.initial, count := 0, newest := none, prior := none, hit := false,
                          lost := false, handoffMissed := false, storeFault := false } }
          else x) }))

/-- SLOT_STATE at a boundary: a value that is not IDLE, ARMED or LIVE is refused RANGE; LIVE over a running FILL's
destination is refused CONFLICT; otherwise the named slot takes the named state, LIVE also setting its hit count to 0. SLOT_ACK clears the four flags and answers them as they stood. No
other slot and no other unit changes (R17, R19). -/
def Obligations.SlotStateAndAck : Prop :=
  ∀ (s : State) (q : Byte) (slot : Nat), Ready s → slot < 24 → s.forward.path = .idle →
    (∀ o n, fillDestination s.sweep = some (o, n) → rangeMeets (s.slot slot).active o n = true →
      exec (.slotState q slot 2) s = .next (answered q .conflict [] s)) ∧
    ((∀ o n, fillDestination s.sweep = some (o, n) → rangeMeets (s.slot slot).active o n = false) →
      exec (.slotState q slot 2) s = .next (answered q .ok [] { s with
        table := s.table.set slot { s.slot slot with
          status := { (s.slot slot).status with state := .live, count := 0 } } })) ∧
    (∀ k, 2 < k → exec (.slotState q slot k) s = .next (answered q .range [] s)) ∧
    (∀ k st, (k = 0 ∧ st = SlotState.idle ∨ k = 1 ∧ st = SlotState.armed) →
      exec (.slotState q slot k) s = .next (answered q .ok [] { s with
        table := s.table.set slot { s.slot slot with status := { (s.slot slot).status with state := st } } })) ∧
    exec (.slotAck q slot) s = .next (answered q .ok
      [flagByte [(s.slot slot).status.hit, (s.slot slot).status.lost, (s.slot slot).status.handoffMissed,
        (s.slot slot).status.storeFault]]
      { s with
        table := s.table.set slot { s.slot slot with
          status := { (s.slot slot).status with hit := false, lost := false, handoffMissed := false,
                                                storeFault := false } } })

/-- STORE_WRITE at a boundary: a range over a running FILL's destination is refused CONFLICT and writes nothing; otherwise
each word goes whole to its offset with the parity state that the poison flag names, and no other word changes
(R51, R52). -/
def Obligations.StoreWritten : Prop :=
  ∀ (s : State) (q : Byte) (offset poison : Nat) (words : List Word), Ready s → StoreSound s →
    s.forward.path = .idle → 1 ≤ words.length → words.length ≤ 12 → offset + words.length ≤ 4096 → poison ≤ 1 →
    (∀ o n, fillDestination s.sweep = some (o, n) → overlaps offset words.length o n = true →
      exec (.storeWrite q offset poison words) s = .next (answered q .conflict [] s)) ∧
    ((∀ o n, fillDestination s.sweep = some (o, n) → overlaps offset words.length o n = false) →
      ∃ m : Store, exec (.storeWrite q offset poison words) s = .next (answered q .ok [] { s with store := m }) ∧
        Store.wf m = true ∧
        (∀ j w, words[j]? = some w → storeRead m (offset + j) = { data := w, bad := poison == 1 }) ∧
        ∀ a, (a < offset ∨ offset + words.length ≤ a) → storeRead m a = storeRead s.store a)

/-- ENGAGE and DISENGAGE at a boundary: an active FBYP pins the part; ENGAGE makes a BYPASS part ACTIVE and clears the
forced indication; DISENGAGE without force is refused SHADOW_LIVE with the lowest LIVE SHADOW slot, and otherwise makes an
ACTIVE part BYPASS (R170, R171). -/
def Obligations.EngageAndDisengage : Prop :=
  ∀ (s : State) (q : Byte), Ready s → s.forward.path = .idle →
    (s.pins.fbyp = true → exec (.engage q) s = .next (answered q .pinned [] s)) ∧
    (s.pins.fbyp = false → s.control.part = .active → exec (.engage q) s = .next (answered q .ok [] s)) ∧
    (s.pins.fbyp = false → s.control.part = .bypass →
      exec (.engage q) s = .next (answered q .ok [] { s with
        control := { s.control with part := .active, forced := false } })) ∧
    (∀ force, force ≤ 1 → s.control.part = .bypass →
      exec (.disengage q force) s = .next (answered q .ok [] s)) ∧
    (∀ i, s.control.part = .active → i < 24 → (s.slot i).active.mode = .shadow → (s.slot i).status.state = .live →
      (∀ j < i, (s.slot j).active.mode ≠ .shadow ∨ (s.slot j).status.state ≠ .live) →
      exec (.disengage q 0) s = .next (answered q .shadowLive (natBytes 1 i) s)) ∧
    (s.control.part = .active → (∀ i < 24, (s.slot i).active.mode ≠ .shadow ∨ (s.slot i).status.state ≠ .live) →
      exec (.disengage q 0) s = .next (answered q .ok [] { s with control := { s.control with part := .bypass } })) ∧
    (s.control.part = .active →
      exec (.disengage q 1) s = .next (answered q .ok [] { s with control := { s.control with part := .bypass } }))

/-- SOFT_RESET: at an IDLE path with no begun block every block takes its reset state as one change, the store, the pins
and the link interface's queues staying; with a begun block it waits for that block; with a request in flight it waits for
the boundary. A hold ends at once, its offer dropped and its response given, and the reset is carried out in the same event
at the boundary so reached. A hold that would begin while a SOFT_RESET waits ends at once in the same way. That the
reset then still waits at the IDLE path, for a row of its own before which no request is accepted, is the model's choice
(notes/assumptions/7.md) (R173, R174, R102, R148, R165, R112). -/
def Obligations.SoftResetCarriedOut : Prop :=
  (∀ (s : State) (q : Byte) (given : Option BusResponse), Ready s →
    (s.forward.path = .idle ∧ given = s.forward.given ∨ ∃ h, s.forward.path = .held h ∧ given = some h.response) →
    blockBegun s.sweep = false →
    ∃ t : State, exec (.softReset q) s = .next t ∧
      t.link = (answered q .ok [] s).link ∧ t.store = s.store ∧ t.pins = s.pins ∧ t.port = s.port ∧
      t.access = s.access ∧
      t.table = List.replicate 24 resetSlot ∧
      t.control = { part := .bypass, forced := false, clear := s.control.clear, config := defaultConfig,
                    timestamp := 0, prescaleCount := 0, causes := 0 } ∧
      t.forward = { s.forward with path := .idle, lastAccess := none, given := given } ∧
      t.capture = { queue := [], nextSeq := 0, dropped := 0, pendingDrops := 0, held := none } ∧
      t.arbiter.linkPassed = 0 ∧ t.arbiter.sweepPassed = 0 ∧ t.arbiter.owner = s.arbiter.owner ∧
      t.sweep = { state := .idle, record := none, block := none }) ∧
  (∀ (s : State) (q : Byte), Ready s → s.forward.path = .idle → blockBegun s.sweep = true →
    exec (.softReset q) s = .next { s with link := waitingLink q .softReset .softResetBlock s.link }) ∧
  (∀ (s : State) (q : Byte), Ready s → s.forward.path ≠ .idle → isHeld s.forward.path = false →
    exec (.softReset q) s = .next { s with link := waitingLink q .softReset (.boundary .softReset) s.link }) ∧
  (∀ (s : State) (q : Byte) (h : HeldRequest), Ready s → s.forward.path = .held h → blockBegun s.sweep = true →
    ∃ t : State, exec (.softReset q) s = .next t ∧ t.link = waitingLink q .softReset .softResetBlock s.link ∧
      t.forward = { s.forward with
        path := .idle
        lastAccess := some (lastAccessOf h.request h.response s.control.timestamp)
        given := some h.response } ∧
      t.capture = { s.capture with
        held := none
        dropped := min (s.capture.dropped + 1) 65535
        pendingDrops := min (s.capture.pendingDrops + 1) 255 } ∧
      hasCause t.control.causes .captureLoss = true ∧ t.store = s.store ∧ t.table = s.table ∧ t.sweep = s.sweep ∧
      t.port = s.port ∧ t.arbiter = s.arbiter) ∧
  (∀ (s : State) (r : BusRequest) (p : PartState) (d : Decided) (data : List Word),
    s.forward.path = .outstanding ⟨r, p, some d⟩ → answers (downstreamRequest ⟨r, p, some d⟩) (.okay data) = true →
    softResetWaits s = true → 64 ≤ s.capture.queue.length → s.control.config.policy = .hold →
    listedSlots d (countingSet (requestKind r) .okay d) ≠ [] →
    ∃ t : State, exec (.downstreamResponse (.okay data)) s = .next t ∧ t.link = s.link ∧ mayAccept t = false ∧
      t.forward = { s.forward with
        path := .idle
        lastAccess := some (lastAccessOf r (okayResponse r d data) s.control.timestamp)
        given := some (okayResponse r d data) } ∧
      t.capture = { s.capture with
        held := none
        dropped := min (s.capture.dropped + 1) 65535
        pendingDrops := min (s.capture.pendingDrops + 1) 255 } ∧
      hasCause t.control.causes .captureLoss = true)

/-! ## Commands carried out at their start -/

/-- PING answers OK with the part code B216h, the revision 1 and the echo bytes unchanged and in their order, in every part
state; more than 8 echo bytes are answered LENGTH. Nothing outside the link interface changes (R163). -/
def Obligations.PingEchoes : Prop :=
  ∀ (s : State) (q : Byte) (echo : List Byte), LinkReady s →
    (echo.length ≤ 8 → exec (.ping q echo) s = .next (answered q .ok ([0xB2, 0x16, 0x01] ++ echo) s)) ∧
    (8 < echo.length → exec (.ping q echo) s = .next (answered q .length [] s))

/-- The reading commands answer the state at their execution and change nothing: NOP, PART_STATUS and ALERT_STATUS in every
part state, the others in BYPASS and ACTIVE, whether or not a request is in flight (R191, R162, R177, R182, R183, R20,
R44, R50, R105, R109, R144). -/
def Obligations.ReadingCommandsChangeNothing : Prop :=
  (∀ (s : State) (q : Byte), LinkReady s →
    exec (.nop q) s = .next (answered q .ok [] s) ∧
    exec (.partStatus q) s = .next (answered q .ok
      ([partCode s.control.part, flagByte [s.control.forced, s.pins.fbyp, isHeld s.forward.path]] ++
        natBytes 1 (dirtySlots s.table).length ++ [sweepStateCode s.sweep.state] ++
        natBytes 1 s.capture.queue.length) s) ∧
    exec (.alertStatus q) s = .next (answered q .ok
      (causeSetBytes s.control.causes ++ causeSetBytes s.control.config.enable ++
        slotSetBytes (slotsWith (·.hit) s.table) ++ slotSetBytes (slotsWith (·.lost) s.table)) s)) ∧
  (∀ (s : State) (q : Byte), Ready s →
    exec (.readConfig q) s = .next (answered q .ok (configBytes s.control.config) s) ∧
    (∀ slot < 24, exec (.slotRead q slot) s = .next (answered q .ok (slotReadBytes (s.slot slot)) s)) ∧
    (∀ skip count, skip ≤ 63 → 1 ≤ count → count ≤ 2 →
      exec (.captureRead q skip count) s = .next (answered q .ok
        (natBytes 1 ((s.capture.queue.drop skip).take count).length ++
          ((s.capture.queue.drop skip).take count).flatMap captureRecordBytes) s)) ∧
    exec (.captureInfo q) s = .next (answered q .ok
      (natBytes 1 s.capture.queue.length ++ natBytes 2 s.capture.nextSeq.toNat ++ natBytes 2 s.capture.dropped ++
        [policyCode s.control.config.policy]) s) ∧
    exec (.lastAccess q) s = .next (answered q .ok (lastAccessBytes s.forward.lastAccess) s) ∧
    (∀ offset count, 1 ≤ count → count ≤ 12 → offset + count ≤ 4096 →
      exec (.storeRead q offset count) s = .next (answered q .ok
        (natBytes 2 (bitsNat ((List.range count).map (fun i => (storeRead s.store (offset + i)).bad))) ++
          (List.range count).flatMap (fun i => wordBytes (storeRead s.store (offset + i)).data)) s)) ∧
    exec (.sweepStatus q) s = .next (answered q .ok
      (sweepStateCode s.sweep.state :: sweepRecordBytes s.sweep.record) s))

/-- An argument outside its range is answered RANGE with no payload, and nothing else changes: the ranges of each command's
rule, with a memory command's 1 to 8 words in one block of 8, and a flag, state or cause set whose value is not assigned
(R10, R17, R50, R51, R105, R121, R131, R132, R133, R175, R181, R185). -/
def Obligations.OutOfRangeAnswered : Prop :=
  ∀ (s : State) (q : Byte), Ready s →
    (∀ force, 1 < force → exec (.disengage q force) s = .next (answered q .range [] s)) ∧
    (∀ f : ConfigFields, 1 < f.policy ∨ 255 < f.prescale ∨ f.timeout = 0 ∨ 4095 < f.timeout ∨ 255 < f.patience ∨
        f.holdLimit = 0 ∨ 65535 < f.holdLimit ∨ f.threshold = 0 ∨ 64 < f.threshold ∨ 16383 < f.enable →
      exec (.setConfig q f) s = .next (answered q .range [] s)) ∧
    (∀ causes, 16383 < causes → exec (.alertAck q causes) s = .next (answered q .range [] s)) ∧
    (∀ slot, 23 < slot → ∀ f k,
      exec (.slotStage q slot f) s = .next (answered q .range [] s) ∧
      exec (.slotUnstage q slot) s = .next (answered q .range [] s) ∧
      exec (.slotRead q slot) s = .next (answered q .range [] s) ∧
      exec (.slotState q slot k) s = .next (answered q .range [] s) ∧
      exec (.slotAck q slot) s = .next (answered q .range [] s)) ∧
    (∀ slot k, 2 < k → exec (.slotState q slot k) s = .next (answered q .range [] s)) ∧
    (∀ skip count, 63 < skip ∨ count = 0 ∨ 2 < count →
      exec (.captureRead q skip count) s = .next (answered q .range [] s)) ∧
    (∀ addr count, 4194303 < addr ∨ count = 0 ∨ 8 < count ∨ addr / 8 ≠ (addr + count - 1) / 8 →
      exec (.readRaw q addr count) s = .next (answered q .range [] s) ∧
      exec (.readView q addr count) s = .next (answered q .range [] s)) ∧
    (∀ addr words, 4194303 < addr ∨ words.length = 0 ∨ 8 < words.length ∨
        addr / 8 ≠ (addr + words.length - 1) / 8 →
      exec (.writeRaw q addr words) s = .next (answered q .range [] s)) ∧
    (∀ addr w, 4194303 < addr → exec (.writeVerify q addr w) s = .next (answered q .range [] s)) ∧
    (∀ offset count, count = 0 ∨ 12 < count ∨ 4096 < offset + count →
      exec (.storeRead q offset count) s = .next (answered q .range [] s)) ∧
    (∀ offset poison words, words.length = 0 ∨ 12 < words.length ∨ 4096 < offset + words.length ∨ 1 < poison →
      exec (.storeWrite q offset poison words) s = .next (answered q .range [] s)) ∧
    (s.sweep.state = .idle →
      (∀ addr count e, 4194303 < addr ∨ count = 0 ∨ 4194304 < addr + count →
        exec (.sweepCheck q addr count e) s = .next (answered q .range [] s)) ∧
      (∀ addr count offset, 4194303 < addr ∨ count = 0 ∨ 4096 < count ∨ 4194304 < addr + count ∨ 4096 < offset + count →
        exec (.sweepFill q addr count offset) s = .next (answered q .range [] s)) ∧
      (∀ addr count offset verify, 4194303 < addr ∨ count = 0 ∨ 4096 < count ∨ 4194304 < addr + count ∨
          4096 < offset + count ∨ 1 < verify →
        exec (.sweepPush q offset count addr verify) s = .next (answered q .range [] s)))

/-- SET_CONFIG with every field in range writes all seven as one change and answers OK; a changed prescale sets the
prescale count to 0, an unchanged one keeps it, and CAPTURE_LEVEL is raised if the level is at least the new threshold.
ALERT_ACK removes every named cause that is pending, except CAPTURE_LEVEL while the level is at least the threshold, and
answers OK with the pending set after the change. Nothing else changes (R175, R176, R178, R181, R110). -/
def Obligations.ConfigWrittenAndAlertsAcknowledged : Prop :=
  (∀ (s : State) (q : Byte) (f : ConfigFields) (p : Policy), Ready s →
    (f.policy = 0 ∧ p = .drop ∨ f.policy = 1 ∧ p = .hold) → f.prescale ≤ 255 → 1 ≤ f.timeout → f.timeout ≤ 4095 →
    f.patience ≤ 255 → 1 ≤ f.holdLimit → f.holdLimit ≤ 65535 → 1 ≤ f.threshold → f.threshold ≤ 64 → f.enable ≤ 16383 →
    exec (.setConfig q f) s = .next (answered q .ok [] { s with
      control := { s.control with
        config := { prescale := f.prescale, timeout := f.timeout, patience := f.patience, policy := p,
                    holdLimit := f.holdLimit, threshold := f.threshold, enable := BitVec.ofNat 14 f.enable }
        prescaleCount := if f.prescale = s.control.config.prescale then s.control.prescaleCount else 0
        causes :=
          if f.threshold ≤ s.capture.queue.length then s.control.causes ||| causeBit .captureLevel
          else s.control.causes } })) ∧
  (∀ (s : State) (q : Byte) (causes : Nat), Ready s → causes ≤ 16383 →
    ∃ left : CauseSet, exec (.alertAck q causes) s = .next (answered q .ok (causeSetBytes left) { s with
        control := { s.control with causes := left } }) ∧
      (∀ c, c ≠ .captureLevel →
        hasCause left c = (hasCause s.control.causes c && !(BitVec.ofNat 14 causes).getLsbD (causeNumber c))) ∧
      (s.capture.queue.length < s.control.config.threshold →
        hasCause left .captureLevel = (hasCause s.control.causes .captureLevel && !(BitVec.ofNat 14 causes).getLsbD 1)) ∧
      (s.control.config.threshold ≤ s.capture.queue.length → hasCause left .captureLevel = true))

/-- SLOT_STAGE with named values: a configuration that meets every condition of R11 and is aligned is written over the
slot's staged configuration and its dirty mark is set; one that is not aligned is answered MISALIGNED; one that fails a
condition of R11, or names a mode, limit action or initial state outside their values, is answered RANGE. A refusal
changes nothing (R11, R12). -/
def Obligations.SlotStaged : Prop :=
  ∀ (s : State) (q : Byte) (slot : Nat) (f : SlotFields), Ready s → slot < 24 →
    (∀ m a st, modeOf f.mode = some m → actionOf f.action = some a → namedState f.initial = some st →
      (stageable slot m a f → f.base % 2 ^ f.k = 0 →
        exec (.slotStage q slot f) s = .next (answered q .ok [] { s with
          table := s.table.set slot { s.slot slot with staged := stagedConfig f m a st, dirty := true } })) ∧
      (stageable slot m a f → f.base % 2 ^ f.k ≠ 0 →
        exec (.slotStage q slot f) s = .next (answered q .misaligned [] s)) ∧
      (¬ stageable slot m a f → exec (.slotStage q slot f) s = .next (answered q .range [] s))) ∧
    (3 < f.mode ∨ 2 < f.action ∨ 2 < f.initial → exec (.slotStage q slot f) s = .next (answered q .range [] s))

/-- SLOT_UNSTAGE copies the slot's active configuration over its staged one, clears its dirty mark and answers OK, whether
or not the slot was dirty; active configuration and status stay, and so does every other slot. TABLE_DISCARD does for every
slot what SLOT_UNSTAGE does for one and answers OK; afterwards no slot is dirty (R13, R14). -/
def Obligations.StagingUndone : Prop :=
  (∀ (s : State) (q : Byte) (slot : Nat), Ready s → slot < 24 →
    exec (.slotUnstage q slot) s = .next (answered q .ok [] { s with
      table := s.table.set slot { staged := (s.slot slot).active, dirty := false, active := (s.slot slot).active
                                  status := (s.slot slot).status } })) ∧
  (∀ (s : State) (q : Byte), Ready s →
    ∃ t : State, exec (.tableDiscard q) s = .next t ∧
      t = answered q .ok [] { s with
        table := s.table.map (fun x => { staged := x.active, dirty := false, active := x.active, status := x.status }) } ∧
      dirtySlots t.table = [])

/-! ## Memory commands -/

/-- A memory command that passes its checks (an address of the space, 1 to 8 words in one block of 8) presents its access:
at an idle port it is issued at once, as READ_RAW's, WRITE_RAW's or WRITE_VERIFY's first request, a WRITE being reported to
the sweep engine; otherwise LINK waits. The command is the executing one; table, store, forwarding path and capture unit
stay (R120 to R123, R126, R114, R119). -/
def Obligations.MemoryCommandsBegin : Prop :=
  ∀ (s : State) (q : Byte) (i : Instr) (c : Command) (job : AccessJob), Ready s →
    (∃ a n, a ≤ 4194303 ∧ 1 ≤ n ∧ n ≤ 8 ∧ a / 8 = (a + n - 1) / 8 ∧ i = .readRaw q a n ∧ c = .readRaw a n ∧
      job = .readRaw a n) ∨
    (∃ a ws, a ≤ 4194303 ∧ 1 ≤ ws.length ∧ ws.length ≤ 8 ∧ a / 8 = (a + ws.length - 1) / 8 ∧ i = .writeRaw q a ws ∧
      c = .writeRaw a ws ∧ job = .writeRaw a ws) ∨
    (∃ a w, a ≤ 4194303 ∧ i = .writeVerify q a w ∧ c = .writeVerify a w ∧ job = .writeVerify a w .read) →
    ∃ t : State, exec i s = .next t ∧ t.link = waitingLink q c .access s.link ∧ t.table = s.table ∧
      t.store = s.store ∧ t.forward = s.forward ∧ t.capture = s.capture ∧ t.control = s.control ∧ t.pins = s.pins ∧
      (portIdle s.arbiter = true → t.access = .outstanding job ∧
        t.port = { s.port with outstanding := issued (jobRequest job) s } ∧
        t.arbiter = { s.arbiter with owner := some .link, linkPassed := 0 } ∧
        (∀ a n, jobRequest job = .read a n → t.sweep = s.sweep) ∧
        (∀ a ws, jobRequest job = .write a ws → t.sweep = (reportWrite a ws s).sweep)) ∧
      (portIdle s.arbiter = false → t.access = .waitGrant job ∧ t.port = s.port ∧ t.sweep = s.sweep ∧
        t.arbiter = { s.arbiter with waitLink := true })

/-- READ_VIEW fixes its sources at its start: in BYPASS every word's source is memory and the predicted outcome OKAY; in
ACTIVE the words are decided as a host READ's and the store word of each PATCH or SHADOW word is fetched. A good store word
has source store with the PATCH mask's lanes or all four, a bad one store-fault, a GUARD word guarded, every other memory; the
predicted outcome is REFUSED with a guarded word, else STORE_FAULT with a bad SHADOW word, else OKAY. Where no word needs
memory it answers at once, from the store alone; otherwise it presents one READ of the whole range. It changes no slot, no
store word and no cause (R124, R125). -/
def Obligations.ViewReadFixesItsSources : Prop :=
  (∀ (s : State) (q : Byte) (a n : Nat) (view : List ViewWord) (predicted : RequestOutcome), Ready s →
    a ≤ 4194303 → 1 ≤ n → n ≤ 8 → a / 8 = (a + n - 1) / 8 →
    (s.control.part = .bypass ∧ view = List.replicate n { source := .memory, lanes := 0, data := 0 } ∧ predicted = .okay ∨
      s.control.part = .active ∧
        view = (decideView a n s).words.map (viewWord (takeSnapshot s.table)) ∧ predicted = predictOutcome (decideView a n s)) →
    (view.any (fun w => w.source != .store || w.lanes != 0xF#4) = false →
      exec (.readView q a n) s = .next (answered q .ok (viewPayload predicted view []) s)) ∧
    (view.any (fun w => w.source != .store || w.lanes != 0xF#4) = true →
      ∃ t : State, exec (.readView q a n) s = .next t ∧ t.link = waitingLink q (.readView a n) .access s.link ∧
        t.table = s.table ∧ t.store = s.store ∧ t.control = s.control ∧ t.capture = s.capture ∧
        t.forward = s.forward ∧ t.sweep = s.sweep ∧
        (portIdle s.arbiter = true → t.access = .outstanding (.readView a n view predicted) ∧
          t.port.outstanding = issued (.read a n) s) ∧
        (portIdle s.arbiter = false → t.access = .waitGrant (.readView a n view predicted) ∧ t.port = s.port))) ∧
  (∀ (a n : Nat) (s : State), (decideView a n s).snapshot = takeSnapshot s.table ∧
    (decideView a n s).words = (List.range n).map (fun j =>
      fetchWord s.store (takeSnapshot s.table) (decideWord (takeSnapshot s.table) .read (a + j)))) ∧
  (∀ (m : Store) (snap : List SnapSlot) (d : WordDecision) (c : SlotConfig), deciderConfig snap d = some c →
    (c.mode = .patch ∨ c.mode = .shadow) →
    fetchWord m snap d = { d with fetched := some (storeRead m (storeIndex c d.addr)) } ∧
    ((storeRead m (storeIndex c d.addr)).bad = true →
      viewWord snap (fetchWord m snap d) = { source := .storeFault, lanes := 0, data := 0 }) ∧
    ((storeRead m (storeIndex c d.addr)).bad = false →
      viewWord snap (fetchWord m snap d) =
        { source := .store, lanes := if c.mode = .patch then c.lanes else 0xF#4
          data := (storeRead m (storeIndex c d.addr)).data })) ∧
  (∀ (m : Store) (snap : List SnapSlot) (d : WordDecision), d.fetched = none →
    (deciderConfig snap d = none → viewWord snap (fetchWord m snap d) = { source := .memory, lanes := 0, data := 0 }) ∧
    (∀ c, deciderConfig snap d = some c → c.mode = .guard →
      viewWord snap (fetchWord m snap d) = { source := .guarded, lanes := 0, data := 0 })) ∧
  (∀ d : Decided,
    ((∃ w ∈ d.words, decidedBy d.snapshot .guard w = true) → predictOutcome d = .refused) ∧
    ((∀ w ∈ d.words, decidedBy d.snapshot .guard w = false) →
      ((∃ w ∈ d.words, decidedBy d.snapshot .shadow w = true ∧ ∃ m, w.fetched = some m ∧ m.bad = true) →
        predictOutcome d = .storeFault) ∧
      ((∀ w ∈ d.words, decidedBy d.snapshot .shadow w = true → ∀ m, w.fetched = some m → m.bad = false) →
        predictOutcome d = .okay)))

/-- The memory's OKAY answers READ_RAW with the words in order, READ_VIEW with sources and composed words, WRITE_RAW with
no payload, and takes WRITE_VERIFY from its read to its write to its read back under one grant, ending with the old word,
the read-back word and the bits that differ within the lanes written; its write is reported to the sweep engine. A completion
considers the next command for its start (R122, R123, R125, R126, R117, R119, R160). -/
def Obligations.LinkAccessAnswered : Prop :=
  (∀ (s : State) (q : QueuedCommand) (rest : List QueuedCommand) (held : List Entry) (job : AccessJob) (data : List Word)
    (payload : List Byte), Executes s .access q rest held → s.access = .outstanding job →
    answers (jobRequest job) (.okay data) = true →
    ((∃ a n, job = .readRaw a n ∧ payload = data.flatMap wordBytes) ∨
      (∃ a n v p, job = .readView a n v p ∧ payload = viewPayload p v data) ∨
      (∃ a ws, job = .writeRaw a ws ∧ payload = []) ∨
      (∃ a w old back, job = .writeVerify a w (.readBack old) ∧ data = [back] ∧
        payload = wordBytes old ++ wordBytes back ++ wordBytes ((w.data ^^^ back) &&& laneBits w.lanes))) →
    ∃ t u : State, exec (.linkAccessResponse (.okay data)) s = .next u ∧ exec .commandStart t = .next u ∧
      (rest = [] → u = t) ∧
      t.link = completedLink s.link rest held ⟨q.seq, .ok, payload⟩ ∧ t.table = s.table ∧ t.store = s.store ∧
      t.control = s.control ∧ t.capture = s.capture ∧ t.access = .idle ∧
      (NobodyWaits s.arbiter → t.port = { outstanding := none, aborted := false } ∧ t.arbiter.owner = none ∧
        t.forward = s.forward ∧ t.sweep = s.sweep)) ∧
  (∀ (s : State) (a : Nat) (w : WriteWord) (old : Word), s.access = .outstanding (.writeVerify a w .read) →
    StartSound s →
    ∃ t : State, exec (.linkAccessResponse (.okay [old])) s = .next t ∧
      t.access = .outstanding (.writeVerify a w (.write old)) ∧ t.port.outstanding = issued (.write a [w]) s ∧
      t.arbiter = s.arbiter ∧ t.link = s.link ∧ t.table = s.table ∧ t.store = s.store ∧ t.forward = s.forward ∧
      t.sweep = (reportWrite a [w] s).sweep) ∧
  (∀ (s : State) (a : Nat) (w : WriteWord) (old : Word), s.access = .outstanding (.writeVerify a w (.write old)) →
    StartSound s →
    exec (.linkAccessResponse (.okay [])) s = .next { s with
      access := .outstanding (.writeVerify a w (.readBack old))
      port := { outstanding := issued (.read a 1) s, aborted := false } })

/-- A link access that the memory answers ERROR, or whose timeout expires, ends its command with MEM_ERROR or TIMEOUT, the
cause raised; only WRITE_VERIFY's response carries a payload, the step and, from step 2 on, the old word. The completion
considers the next command for its start (R118, R127, R160). -/
def Obligations.FailedLinkAccessAnswered : Prop :=
  ∀ (s : State) (q : QueuedCommand) (rest : List QueuedCommand) (held : List Entry) (job : AccessJob)
    (payload : List Byte), Executes s .access q rest held → s.access = .outstanding job →
    ((∃ a n, job = .readRaw a n ∧ payload = []) ∨ (∃ a n v p, job = .readView a n v p ∧ payload = []) ∨
      (∃ a ws, job = .writeRaw a ws ∧ payload = []) ∨ (∃ a w, job = .writeVerify a w .read ∧ payload = [1]) ∨
      (∃ a w old, job = .writeVerify a w (.write old) ∧ payload = 2 :: wordBytes old) ∨
      (∃ a w old, job = .writeVerify a w (.readBack old) ∧ payload = 3 :: wordBytes old)) →
    (∃ t u : State, exec (.linkAccessResponse .error) s = .next u ∧ exec .commandStart t = .next u ∧
      (rest = [] → u = t) ∧
      t.link = completedLink s.link rest held ⟨q.seq, .memError, payload⟩ ∧
      t.control = { s.control with causes := s.control.causes ||| causeBit .downError } ∧
      t.access = .idle ∧ t.table = s.table ∧ t.store = s.store ∧
      (NobodyWaits s.arbiter → t.port = { outstanding := none, aborted := false } ∧ t.arbiter.owner = none)) ∧
    (s.arbiter.owner = some .link →
      ∃ t u : State, exec .downstreamTimeoutExpiry s = .next u ∧ exec .commandStart t = .next u ∧
        (rest = [] → u = t) ∧
        t.link = completedLink s.link rest held ⟨q.seq, .timeout, payload⟩ ∧
        t.control = { s.control with causes := s.control.causes ||| causeBit .downTimeout } ∧
        t.access = .idle ∧ t.table = s.table ∧ t.store = s.store ∧ t.port.aborted = true ∧
        (NobodyWaits s.arbiter → t.port.outstanding = none ∧ t.arbiter.owner = none))

/-! ## Sweeps -/

/-- The flags of the sweep record. A reported write sets DISTURBED in a sweep that is RUNNING or SUSPENDED exactly where one
of its words with a non-empty lane set lies in the sweep's memory range; a shadow write with an enabled lane sets it in a PUSH
exactly where it lands in the source range; a hand-off to a PATCH or SHADOW slot sets OVERLAP in a FILL exactly where the
slot's store range overlaps the destination. Otherwise, and in an IDLE engine, nothing changes
(R89, R119, R145, R146, R70). -/
def Obligations.SweepFlagsSet : Prop :=
  (∀ (s : State) (a : Nat) (ws : List WriteWord), s.sweep.state = .idle → reportWrite a ws s = s) ∧
  (∀ (s : State) (o : Nat) (l : Lanes), s.sweep.state = .idle → reportShadowWrite o l s = s) ∧
  (∀ (s : State) (c : SlotConfig), s.sweep.state = .idle → reportHandoff c s = s) ∧
  (∀ (s : State) (r : SweepRecord), s.sweep.state ≠ .idle → s.sweep.record = some r →
    (∀ (a : Nat) (ws : List WriteWord),
      ((∃ j w, ws[j]? = some w ∧ w.lanes ≠ 0 ∧ r.start ≤ a + j ∧ a + j < r.start + r.count) →
        reportWrite a ws s = { s with sweep := { s.sweep with record := some { r with disturbed := true } } }) ∧
      ((∀ j w, ws[j]? = some w → w.lanes ≠ 0 → a + j < r.start ∨ r.start + r.count ≤ a + j) →
        reportWrite a ws s = s)) ∧
    (∀ (o : Nat) (l : Lanes),
      (∀ src v, r.work = .push src v → l ≠ 0 → src ≤ o → o < src + r.count →
        reportShadowWrite o l s = { s with sweep := { s.sweep with record := some { r with disturbed := true } } }) ∧
      ((∀ src v, r.work = .push src v → l = 0 ∨ o < src ∨ src + r.count ≤ o) → reportShadowWrite o l s = s)) ∧
    (∀ c : SlotConfig,
      (∀ dst v, r.work = .fill dst v → (c.mode = .patch ∨ c.mode = .shadow) → c.offset < dst + r.count →
        dst < c.offset + 2 ^ c.k →
        reportHandoff c s = { s with sweep := { s.sweep with record := some { r with work := .fill dst true } } }) ∧
      ((∀ dst v, r.work = .fill dst v → c.mode = .watch ∨ c.mode = .guard ∨ dst + r.count ≤ c.offset ∨
          c.offset + 2 ^ c.k ≤ dst) →
        reportHandoff c s = s)))

/-- A start command that passes its checks replaces the record whole, answers OK, and takes the first block in hand: to the
end of its aligned block of 8 or of the range. At an idle port its first access is issued at once; otherwise SWEEP waits.
While a sweep is RUNNING or SUSPENDED the three are answered BUSY, and a FILL over a LIVE slot's store range is refused
CONFLICT with the lowest such slot. A PUSH whose first block meets a bad store word answers OK and fails at once, with
STORE_PARITY and the address that corresponds to the lowest bad word, and presents nothing (R129 to R134, R137, R140). -/
def Obligations.SweepStarts : Prop :=
  (∀ (s : State) (q : Byte), Ready s → s.sweep.state ≠ .idle →
    (∀ a n e, exec (.sweepCheck q a n e) s = .next (answered q .busy [] s)) ∧
    (∀ a n o, exec (.sweepFill q a n o) s = .next (answered q .busy [] s)) ∧
    (∀ a n o v, exec (.sweepPush q o n a v) s = .next (answered q .busy [] s))) ∧
  (∀ (s : State) (q : Byte) (a n o i : Nat), Ready s → s.sweep.state = .idle → a < 4194304 → 1 ≤ n → n ≤ 4096 →
    a + n ≤ 4194304 → o + n ≤ 4096 → i < 24 → (s.slot i).status.state = .live →
    rangeMeets (s.slot i).active o n = true →
    (∀ j < i, (s.slot j).status.state ≠ .live ∨ rangeMeets (s.slot j).active o n = false) →
    exec (.sweepFill q a n o) s = .next (answered q .conflict (natBytes 1 i) s)) ∧
  (∀ (s : State) (q : Byte) (i : Instr) (a n : Nat) (work : SweepWork) (words : List Word) (first : BusRequest),
    Ready s → s.sweep.state = .idle → a < 4194304 → 1 ≤ n → a + n ≤ 4194304 →
    ((∃ e, i = .sweepCheck q a n e ∧ work = .check e 0 none ∧ words = [] ∧ first = .read a (min (8 - a % 8) n)) ∨
      (∃ o, i = .sweepFill q a n o ∧ n ≤ 4096 ∧ o + n ≤ 4096 ∧
        (∀ j < 24, (s.slot j).status.state ≠ .live ∨ rangeMeets (s.slot j).active o n = false) ∧
        work = .fill o false ∧ words = [] ∧ first = .read a (min (8 - a % 8) n)) ∨
      (∃ o v, i = .sweepPush q o n a v ∧ n ≤ 4096 ∧ o + n ≤ 4096 ∧ v ≤ 1 ∧
        (∀ j < min (8 - a % 8) n, (storeRead s.store (o + j)).bad = false) ∧
        work = .push o (if v = 1 then some ⟨0, none⟩ else none) ∧
        words = (List.range (min (8 - a % 8) n)).map (fun j => (storeRead s.store (o + j)).data) ∧
        first = .write a (words.map (fun w => ⟨w, 0xF#4⟩)))) →
    ∃ t : State, exec i s = .next t ∧ t.link = (answered q .ok [] s).link ∧ t.table = s.table ∧ t.store = s.store ∧
      t.control = s.control ∧ t.forward = s.forward ∧ t.capture = s.capture ∧ t.access = s.access ∧
      (portIdle s.arbiter = true →
        t.sweep = { state := .running
                    record := some { start := a, count := n, done := 0, outcome := .pending, fail := none,
                                     disturbed := false, work := work }
                    block := some ⟨a, min (8 - a % 8) n, words, .access⟩ } ∧
        t.port = { s.port with outstanding := issued first s } ∧
        t.arbiter = { s.arbiter with owner := some .sweep, sweepPassed := 0 }) ∧
      (portIdle s.arbiter = false →
        t.sweep = { state := .running
                    record := some { start := a, count := n, done := 0, outcome := .pending, fail := none,
                                     disturbed := false, work := work }
                    block := some ⟨a, min (8 - a % 8) n, words, .waiting⟩ } ∧
        t.port = s.port ∧ t.arbiter = { s.arbiter with waitSweep := true })) ∧
  (∀ (s : State) (q : Byte) (a n o v j : Nat), Ready s → s.sweep.state = .idle → a < 4194304 → 1 ≤ n → n ≤ 4096 →
    a + n ≤ 4194304 → o + n ≤ 4096 → v ≤ 1 → j < min (8 - a % 8) n → (storeRead s.store (o + j)).bad = true →
    (∀ i < j, (storeRead s.store (o + i)).bad = false) →
    exec (.sweepPush q o n a v) s = .next (answered q .ok [] { s with
      control := { s.control with causes := s.control.causes ||| causeBit .storeParity ||| causeBit .sweepEnd }
      sweep := { state := .idle
                 record := some { start := a, count := n, done := 0, outcome := .failed
                                  fail := some (.storeParity, a + j), disturbed := false
                                  work := .push o (if v = 1 then some ⟨0, none⟩ else none) }
                 block := none } }))

/-- A block that is not the last completes with nobody else waiting and no command waiting for it: its effect is made (a
CHECK folds its words, a FILL writes them, a verified PUSH compares its read back), words done rises by the block, and the
next block is taken in hand. The next read, or the next PUSH block's write with its store words, is issued at once; a PUSH
block that meets a bad store word fails the sweep with STORE_PARITY at the address that corresponds to the lowest one. The
OKAY of a verified PUSH block's write presents the read back of the same block, issued at once
(R134 to R138, R140, R117). -/
def Obligations.SweepBlockCompletes : Prop :=
  (∀ (s : State) (r : SweepRecord) (b : Block) (data : List Word) (work : SweepWork) (m : Store) (next : Nat),
    s.sweep = { state := .running, record := some r, block := some b } → BlockDone r b data s.store work m →
    next = r.done + b.count → next < r.count → NobodyWaits s.arbiter → NoWaiter s.link → StartSound s →
    ((∀ o v, work ≠ .push o v) →
      exec (.sweepBlockResponse (.okay data)) s = .next { s with
        store := m
        sweep :=
          { state := .running
            record := some { r with done := next, work := work }
            block := some ⟨r.start + next, countAt r next, [], .access⟩ }
        port := { outstanding := issued (.read (r.start + next) (countAt r next)) s, aborted := false }
        arbiter := { s.arbiter with owner := some .sweep, sweepPassed := 0 } }) ∧
    (∀ o v words, work = .push o v → (∀ j < countAt r next, (storeRead s.store (o + next + j)).bad = false) →
      words = (List.range (countAt r next)).map (fun j => (storeRead s.store (o + next + j)).data) →
      exec (.sweepBlockResponse (.okay data)) s = .next { s with
        sweep :=
          { state := .running
            record := some { r with done := next, work := work }
            block := some ⟨r.start + next, countAt r next, words, .access⟩ }
        port := { outstanding := issued (.write (r.start + next) (words.map (fun w => ⟨w, 0xF#4⟩))) s, aborted := false }
        arbiter := { s.arbiter with owner := some .sweep, sweepPassed := 0 } }) ∧
    (∀ o v j, work = .push o v → j < countAt r next → (storeRead s.store (o + next + j)).bad = true →
      (∀ i < j, (storeRead s.store (o + next + i)).bad = false) →
      exec (.sweepBlockResponse (.okay data)) s = .next { s with
        control := { s.control with causes := s.control.causes ||| causeBit .storeParity ||| causeBit .sweepEnd }
        sweep :=
          { state := .idle
            record := some { r with done := next, work := work, outcome := .failed
                                    fail := some (.storeParity, r.start + next + j) }
            block := none }
        port := { outstanding := none, aborted := false }
        arbiter := { s.arbiter with owner := none } })) ∧
  (∀ (s : State) (r : SweepRecord) (b : Block) (o : Nat) (v : Readback),
    s.sweep = { state := .running, record := some r, block := some b } → b.phase = .access →
    r.work = .push o (some v) → NobodyWaits s.arbiter → StartSound s →
    exec (.sweepBlockResponse (.okay [])) s = .next { s with
      sweep := { state := .running, record := some r, block := some { b with phase := .back } }
      port := { outstanding := issued (.read b.addr b.count) s, aborted := false }
      arbiter := { s.arbiter with owner := some .sweep, sweepPassed := 0 } })

/-- The last block's completion with nobody else waiting and no command waiting for it ends the sweep DONE: a CHECK with an
expected CRC sets or clears match, a PUSH without verify needs the write's OKAY alone, a PUSH with verify counts the words
that differ; SWEEP_END is raised and the port is free (R131, R135, R136, R138, R140). -/
def Obligations.SweepEndsDone : Prop :=
  ∀ (s : State) (r : SweepRecord) (b : Block) (data : List Word) (work : SweepWork) (m : Store),
    s.sweep = { state := .running, record := some r, block := some b } → BlockDone r b data s.store work m →
    r.done + b.count = r.count → NobodyWaits s.arbiter → NoWaiter s.link → StartSound s →
    exec (.sweepBlockResponse (.okay data)) s = .next { s with
      store := m
      control := { s.control with causes := s.control.causes ||| causeBit .sweepEnd }
      sweep :=
        { state := .idle
          record := some { r with done := r.count, outcome := .done, work := doneWork work }
          block := none }
      port := { outstanding := none, aborted := false }
      arbiter := { s.arbiter with owner := none } }

/-- What a command that waits for the block in hand does at its end, nobody else waiting for the port. With words left,
SWEEP_SUSPEND leaves the sweep SUSPENDED and answers OK, SWEEP_ABORT ends it ABORTED with SWEEP_END and answers OK, the
completed block counting; at the last block, or one that fails, the sweep ends by its own event and both answer NO_SWEEP. A
SOFT_RESET makes its change in every case, a FILL's words standing in the store and the pending set empty. The completion
considers the command behind for its start (R139 to R141, R143, R148, R160, R173, R174). -/
def Obligations.WaitersActAtTheBlockEnd : Prop :=
  ∀ (s : State) (r : SweepRecord) (b : Block) (e : Executing) (q : QueuedCommand) (rest : List QueuedCommand)
    (held : List Entry), s.sweep = { state := .running, record := some r, block := some b } →
    Executes s e q rest held → NobodyWaits s.arbiter →
    (∀ data work m, BlockDone r b data s.store work m → r.done + b.count < r.count →
      (e = .suspend → exec (.sweepBlockResponse (.okay data)) s = exec .commandStart { s with
        store := m
        sweep := { state := .suspended, record := some { r with done := r.done + b.count, work := work }, block := none }
        port := { outstanding := none, aborted := false }
        arbiter := { s.arbiter with owner := none }
        link := completedLink s.link rest held ⟨q.seq, .ok, []⟩ }) ∧
      (e = .abort → exec (.sweepBlockResponse (.okay data)) s = exec .commandStart { s with
        store := m
        control := { s.control with causes := s.control.causes ||| causeBit .sweepEnd }
        sweep := { state := .idle
                   record := some { r with done := r.done + b.count, outcome := .aborted, work := work }
                   block := none }
        port := { outstanding := none, aborted := false }
        arbiter := { s.arbiter with owner := none }
        link := completedLink s.link rest held ⟨q.seq, .ok, []⟩ })) ∧
    (∀ data work m, BlockDone r b data s.store work m → r.done + b.count = r.count → e = .suspend ∨ e = .abort →
      exec (.sweepBlockResponse (.okay data)) s = exec .commandStart { s with
        store := m
        control := { s.control with causes := s.control.causes ||| causeBit .sweepEnd }
        sweep := { state := .idle
                   record := some { r with done := r.count, outcome := .done, work := doneWork work }
                   block := none }
        port := { outstanding := none, aborted := false }
        arbiter := { s.arbiter with owner := none }
        link := completedLink s.link rest held ⟨q.seq, .noSweep, []⟩ }) ∧
    (∀ data work m, BlockDone r b data s.store work m → r.done + b.count ≤ r.count → e = .softResetBlock →
      exec (.sweepBlockResponse (.okay data)) s = exec .commandStart
        (softResetState (completedLink s.link rest held ⟨q.seq, .ok, []⟩) { s with
          store := m
          port := { outstanding := none, aborted := false }
          arbiter := { s.arbiter with owner := none } })) ∧
    (b.phase = .access ∨ b.phase = .back →
      (e = .suspend ∨ e = .abort →
        exec (.sweepBlockResponse .error) s = exec .commandStart { s with
          control := { s.control with causes := s.control.causes ||| causeBit .downError ||| causeBit .sweepEnd }
          sweep := { state := .idle, record := some { r with outcome := .failed, fail := some (.memError, b.addr) }
                     block := none }
          port := { outstanding := none, aborted := false }
          arbiter := { s.arbiter with owner := none }
          link := completedLink s.link rest held ⟨q.seq, .noSweep, []⟩ } ∧
        (s.arbiter.owner = some .sweep →
          exec .downstreamTimeoutExpiry s = exec .commandStart { s with
            control := { s.control with causes := s.control.causes ||| causeBit .downTimeout ||| causeBit .sweepEnd }
            sweep := { state := .idle, record := some { r with outcome := .failed, fail := some (.timeout, b.addr) }
                       block := none }
            port := { outstanding := none, aborted := true }
            arbiter := { s.arbiter with owner := none }
            link := completedLink s.link rest held ⟨q.seq, .noSweep, []⟩ })) ∧
      (e = .softResetBlock →
        exec (.sweepBlockResponse .error) s = exec .commandStart
          (softResetState (completedLink s.link rest held ⟨q.seq, .ok, []⟩) { s with
            port := { outstanding := none, aborted := false }
            arbiter := { s.arbiter with owner := none } }) ∧
        (s.arbiter.owner = some .sweep →
          exec .downstreamTimeoutExpiry s = exec .commandStart
            (softResetState (completedLink s.link rest held ⟨q.seq, .ok, []⟩) { s with
              port := { outstanding := none, aborted := true }
              arbiter := { s.arbiter with owner := none } }))))

/-- A block access that the memory answers ERROR, or whose timeout expires, ends the sweep FAILED with its cause and the
block's first address, words done and the store unchanged; DOWN_ERROR or DOWN_TIMEOUT and SWEEP_END are raised
(R139, R140, R118). -/
def Obligations.FailedBlockEndsTheSweep : Prop :=
  ∀ (s : State) (r : SweepRecord) (b : Block),
    s.sweep = { state := .running, record := some r, block := some b } → (b.phase = .access ∨ b.phase = .back) →
    NobodyWaits s.arbiter → NoWaiter s.link → StartSound s →
    exec (.sweepBlockResponse .error) s = .next { s with
      control := { s.control with causes := s.control.causes ||| causeBit .downError ||| causeBit .sweepEnd }
      sweep := { state := .idle, record := some { r with outcome := .failed, fail := some (.memError, b.addr) }
                 block := none }
      port := { outstanding := none, aborted := false }
      arbiter := { s.arbiter with owner := none } } ∧
    (s.arbiter.owner = some .sweep →
      exec .downstreamTimeoutExpiry s = .next { s with
        control := { s.control with causes := s.control.causes ||| causeBit .downTimeout ||| causeBit .sweepEnd }
        sweep := { state := .idle, record := some { r with outcome := .failed, fail := some (.timeout, b.addr) }
                   block := none }
        port := { outstanding := none, aborted := true }
        arbiter := { s.arbiter with owner := none } })

/-- SWEEP_SUSPEND, SWEEP_RESUME and SWEEP_ABORT by the sweep state: NO_SWEEP where the sweep is not in a state they need; a
waiting block is withdrawn, leaving the waiting set with the count 0; a begun block is awaited; a suspended sweep is
resumed at start address + words done, a PUSH with the store words of its next block or failing at a bad one, or ends ABORTED
with SWEEP_END raised (R141 to R143, R134, R137, R116). -/
def Obligations.SweepSuspendResumeAbort : Prop :=
  ∀ (s : State) (q : Byte), Ready s →
    (s.sweep.state = .idle →
      exec (.sweepSuspend q) s = .next (answered q .noSweep [] s) ∧
      exec (.sweepResume q) s = .next (answered q .noSweep [] s) ∧
      exec (.sweepAbort q) s = .next (answered q .noSweep [] s)) ∧
    (s.sweep.state = .running → exec (.sweepResume q) s = .next (answered q .noSweep [] s)) ∧
    (s.sweep.state = .running → blockBegun s.sweep = true →
      exec (.sweepSuspend q) s = .next { s with link := waitingLink q .sweepSuspend .suspend s.link } ∧
      exec (.sweepAbort q) s = .next { s with link := waitingLink q .sweepAbort .abort s.link }) ∧
    (s.sweep.state = .running → blockBegun s.sweep = false →
      exec (.sweepSuspend q) s = .next (answered q .ok [] { s with
        sweep := { s.sweep with state := .suspended, block := none }
        arbiter := { s.arbiter with waitSweep := false, sweepPassed := 0 } }) ∧
      exec (.sweepAbort q) s = .next (answered q .ok [] { s with
        control := { s.control with causes := s.control.causes ||| causeBit .sweepEnd }
        sweep := { state := .idle, record := s.sweep.record.map (fun r => { r with outcome := .aborted }), block := none }
        arbiter := { s.arbiter with waitSweep := false, sweepPassed := 0 } })) ∧
    (s.sweep.state = .suspended →
      exec (.sweepSuspend q) s = .next (answered q .ok [] s) ∧
      exec (.sweepAbort q) s = .next (answered q .ok [] { s with
        control := { s.control with causes := s.control.causes ||| causeBit .sweepEnd }
        sweep := { state := .idle, record := s.sweep.record.map (fun r => { r with outcome := .aborted })
                   block := none } }) ∧
      (∀ r, s.sweep.record = some r → workCode r.work ≠ workCode (.push 0 none) → portIdle s.arbiter = true →
        exec (.sweepResume q) s = .next (answered q .ok [] { s with
          sweep := { state := .running, record := some r
                     block := some ⟨r.start + r.done,
                       min (8 - (r.start + r.done) % 8) (r.count - r.done), [], .access⟩ }
          port := { s.port with outstanding := issued (.read (r.start + r.done)
            (min (8 - (r.start + r.done) % 8) (r.count - r.done))) s }
          arbiter := { s.arbiter with owner := some .sweep, sweepPassed := 0 } })) ∧
      (∀ r o v words, s.sweep.record = some r → r.work = .push o v → portIdle s.arbiter = true →
        (∀ j < countAt r r.done, (storeRead s.store (o + r.done + j)).bad = false) →
        words = (List.range (countAt r r.done)).map (fun j => (storeRead s.store (o + r.done + j)).data) →
        exec (.sweepResume q) s = .next (answered q .ok [] { s with
          sweep := { state := .running, record := some r
                     block := some ⟨r.start + r.done, countAt r r.done, words, .access⟩ }
          port := { s.port with outstanding := issued (.write (r.start + r.done) (words.map (fun w => ⟨w, 0xF#4⟩))) s }
          arbiter := { s.arbiter with owner := some .sweep, sweepPassed := 0 } })) ∧
      (∀ r o v j, s.sweep.record = some r → r.work = .push o v → j < countAt r r.done →
        (storeRead s.store (o + r.done + j)).bad = true →
        (∀ i < j, (storeRead s.store (o + r.done + i)).bad = false) →
        exec (.sweepResume q) s = .next (answered q .ok [] { s with
          control := { s.control with causes := s.control.causes ||| causeBit .storeParity ||| causeBit .sweepEnd }
          sweep := { state := .idle
                     record := some { r with outcome := .failed, fail := some (.storeParity, r.start + r.done + j) }
                     block := none } })))
end

