-- ==== Sys2Proof/Laws/Bytes.lean ====
section
/-! SUPPORT. Fields of frames: lengths, and that what is written into bytes is read back from them. -/

namespace Sys2Proof.Machine

set_option Elab.async false

/-! ## Numbers -/

@[simp] theorem natBytes_length (n v : Nat) : (natBytes n v).length = n := by
  induction n generalizing v with
  | zero => rfl
  | succ n ih => simp [natBytes, ih]

theorem bytesNat_append_one (bs : List Byte) (b : Byte) : bytesNat (bs ++ [b]) = bytesNat bs * 256 + b.toNat := by
  simp [bytesNat]

/-- A field reads back as the number written, reduced to the field's width. -/
theorem bytesNat_natBytes_mod (n v : Nat) : bytesNat (natBytes n v) = v % 256 ^ n := by
  induction n generalizing v with
  | zero => simp [natBytes, bytesNat, Nat.mod_one]
  | succ n ih =>
    have h : v % 256 ^ (n + 1) = v % 256 + 256 * (v / 256 % 256 ^ n) := by
      rw [Nat.pow_succ, Nat.mul_comm, Nat.mod_mul]
    rw [natBytes, bytesNat_append_one, ih, h]
    simp only [BitVec.toNat_ofNat]
    omega

/-- A number that fits its field reads back as written. -/
theorem bytesNat_natBytes {n v : Nat} (h : fits n v = true) : bytesNat (natBytes n v) = v := by
  rw [bytesNat_natBytes_mod]
  exact Nat.mod_eq_of_lt (by simpa [fits] using h)

theorem bytesNat_lt (bs : List Byte) : bytesNat bs < 256 ^ bs.length := by
  induction bs using List.reverseRecOn with
  | nil => simp [bytesNat]
  | append_singleton bs b ih =>
    rw [bytesNat_append_one, List.length_append, List.length_singleton, Nat.pow_succ]
    have := b.isLt
    omega

/-! ## Words, lanes and flags -/

@[simp] theorem wordBytes_length (w : Word) : (wordBytes w).length = 4 := natBytes_length 4 _

@[simp] theorem bytesWord_wordBytes (w : Word) : bytesWord (wordBytes w) = w := by
  rw [bytesWord, wordBytes, bytesNat_natBytes_mod, Nat.mod_eq_of_lt (by simpa using w.isLt)]
  exact BitVec.ofNat_toNat 32 w

@[simp] theorem byteLanes_lanesByte (l : Lanes) : byteLanes (lanesByte l) = l := by
  simp [byteLanes, lanesByte]

@[simp] theorem writeWordBytes_length (w : WriteWord) : (writeWordBytes w).length = 5 := by
  simp [writeWordBytes]

@[simp] theorem slotFieldBytes_length (f : SlotFields) : (slotFieldBytes f).length = 15 := by
  simp [slotFieldBytes]

@[simp] theorem configFieldBytes_length (f : ConfigFields) : (configFieldBytes f).length = 10 := by
  simp [configFieldBytes]

/-- The three flags of a slot configuration are read back from their byte. -/
theorem flagByte_three (a b c : Bool) :
    (flagByte [a, b, c]).getLsbD 0 = a ∧ (flagByte [a, b, c]).getLsbD 1 = b ∧ (flagByte [a, b, c]).getLsbD 2 = c := by
  revert a b c; decide

theorem wordBytes_cons (w : Word) : ∃ a b c d, wordBytes w = [a, b, c, d] := by
  have h := wordBytes_length w
  match wordBytes w, h with
  | [a, b, c, d], _ => exact ⟨a, b, c, d, rfl⟩

/-- Words written one after another are read back. -/
theorem argWords_flatMap (ws : List Word) : argWords (ws.flatMap wordBytes) = ws := by
  induction ws with
  | nil => rfl
  | cons w ws ih =>
    obtain ⟨a, b, c, d, h⟩ := wordBytes_cons w
    rw [List.flatMap_cons, h]
    simp only [List.cons_append, List.nil_append, argWords, ih]
    rw [← h, bytesWord_wordBytes]

/-- Words with lane sets written one after another are read back. -/
theorem argWriteWords_flatMap (ws : List WriteWord) : argWriteWords (ws.flatMap writeWordBytes) = ws := by
  induction ws with
  | nil => rfl
  | cons w ws ih =>
    obtain ⟨a, b, c, d, h⟩ := wordBytes_cons w.data
    rw [List.flatMap_cons, writeWordBytes, h]
    simp only [List.cons_append, List.nil_append, argWriteWords, ih, byteLanes_lanesByte]
    rw [← h, bytesWord_wordBytes]

theorem flatMap_wordBytes_length (ws : List Word) : (ws.flatMap wordBytes).length = 4 * ws.length := by
  induction ws with
  | nil => rfl
  | cons w ws ih => simp [ih]; omega

theorem flatMap_writeWordBytes_length (ws : List WriteWord) :
    (ws.flatMap writeWordBytes).length = 5 * ws.length := by
  induction ws with
  | nil => rfl
  | cons w ws ih => simp [ih]; omega

/-! ## The wire -/

/-- The bits of a byte make the byte again. -/
theorem bitsBytes_byteBits (b : Byte) (rest : List Bool) : bitsBytes (byteBits b ++ rest) = b :: bitsBytes rest := by
  have h : ∀ b : Byte, flagByte [b.getLsbD 0, b.getLsbD 1, b.getLsbD 2, b.getLsbD 3, b.getLsbD 4, b.getLsbD 5,
      b.getLsbD 6, b.getLsbD 7] = b := by decide
  rw [show byteBits b = [b.getLsbD 7, b.getLsbD 6, b.getLsbD 5, b.getLsbD 4, b.getLsbD 3, b.getLsbD 2, b.getLsbD 1,
    b.getLsbD 0] from rfl]
  simp only [List.cons_append, List.nil_append, bitsBytes, h b]

/-- The bytes that pass on the wire arrive as they were sent, whatever bits follow. -/
theorem bitsBytes_bytesBits (bs : List Byte) (rest : List Bool) :
    bitsBytes (bytesBits bs ++ rest) = bs ++ bitsBytes rest := by
  induction bs with
  | nil => rfl
  | cons b bs ih =>
    rw [bytesBits, List.flatMap_cons, List.append_assoc, bitsBytes_byteBits]
    exact congrArg (b :: ·) ih

@[simp] theorem bytesBits_length (bs : List Byte) : (bytesBits bs).length = 8 * bs.length := by
  induction bs with
  | nil => rfl
  | cons b bs ih =>
    rw [bytesBits, List.flatMap_cons, List.length_append, ← bytesBits, ih]
    simp [byteBits]
    omega

/-! ## Frames -/

@[simp] theorem withCrc_length (bs : List Byte) : (withCrc bs).length = bs.length + 2 := by simp [withCrc]

@[simp] theorem outboundFrame_length (q : Byte) (st : Status) (flags : List Bool) (p : List Byte) :
    (outboundFrame q st flags p).length = 6 + p.length := by
  simp [outboundFrame]; omega

/-- The CRC field of a frame whose length byte counts it reads back as the CRC of the bytes before it. -/
theorem crcField_withCrc (bs : List Byte) (h : lengthField (withCrc bs) = bs.length + 2) :
    crcField (withCrc bs) = (crc16 bs).toNat := by
  rw [crcField, h, withCrc, Nat.add_sub_cancel, List.drop_left, List.take_of_length_le (by simp),
    bytesNat_natBytes_mod]
  exact Nat.mod_eq_of_lt (by simpa using (crc16 bs).isLt)

theorem frameBody_withCrc (bs : List Byte) (h : lengthField (withCrc bs) = bs.length + 2) :
    frameBody (withCrc bs) = bs := by
  rw [frameBody, h, withCrc, Nat.add_sub_cancel, List.take_left]

end Sys2Proof.Machine
end

