-- ==== Sys2Proof/Laws/State.lean ====
section
/-! SUPPORT. What each replacement of a unit leaves in each field of State: one lemma per field per update. -/

namespace Sys2Proof.Machine

set_option Elab.async false

/-! ## withPending -/

@[simp] theorem State.withPending_pending (s : State) (v : List Instr) : (s.withPending v).pending = v := rfl
@[simp] theorem State.withPending_pins (s : State) (v : List Instr) : (s.withPending v).pins = s.pins := rfl
@[simp] theorem State.withPending_control (s : State) (v : List Instr) : (s.withPending v).control = s.control := rfl
@[simp] theorem State.withPending_table (s : State) (v : List Instr) : (s.withPending v).table = s.table := rfl
@[simp] theorem State.withPending_store (s : State) (v : List Instr) : (s.withPending v).store = s.store := rfl
@[simp] theorem State.withPending_forward (s : State) (v : List Instr) : (s.withPending v).forward = s.forward := rfl
@[simp] theorem State.withPending_capture (s : State) (v : List Instr) : (s.withPending v).capture = s.capture := rfl
@[simp] theorem State.withPending_arbiter (s : State) (v : List Instr) : (s.withPending v).arbiter = s.arbiter := rfl
@[simp] theorem State.withPending_port (s : State) (v : List Instr) : (s.withPending v).port = s.port := rfl
@[simp] theorem State.withPending_access (s : State) (v : List Instr) : (s.withPending v).access = s.access := rfl
@[simp] theorem State.withPending_sweep (s : State) (v : List Instr) : (s.withPending v).sweep = s.sweep := rfl
@[simp] theorem State.withPending_link (s : State) (v : List Instr) : (s.withPending v).link = s.link := rfl
@[simp] theorem State.withPending_self (s : State) : s.withPending s.pending = s := rfl
@[simp] theorem State.withPending_withPending (s : State) (v w : List Instr) : (s.withPending v).withPending w = s.withPending w := rfl

/-! ## withPins -/

@[simp] theorem State.withPins_pending (s : State) (v : Pins) : (s.withPins v).pending = s.pending := rfl
@[simp] theorem State.withPins_pins (s : State) (v : Pins) : (s.withPins v).pins = v := rfl
@[simp] theorem State.withPins_control (s : State) (v : Pins) : (s.withPins v).control = s.control := rfl
@[simp] theorem State.withPins_table (s : State) (v : Pins) : (s.withPins v).table = s.table := rfl
@[simp] theorem State.withPins_store (s : State) (v : Pins) : (s.withPins v).store = s.store := rfl
@[simp] theorem State.withPins_forward (s : State) (v : Pins) : (s.withPins v).forward = s.forward := rfl
@[simp] theorem State.withPins_capture (s : State) (v : Pins) : (s.withPins v).capture = s.capture := rfl
@[simp] theorem State.withPins_arbiter (s : State) (v : Pins) : (s.withPins v).arbiter = s.arbiter := rfl
@[simp] theorem State.withPins_port (s : State) (v : Pins) : (s.withPins v).port = s.port := rfl
@[simp] theorem State.withPins_access (s : State) (v : Pins) : (s.withPins v).access = s.access := rfl
@[simp] theorem State.withPins_sweep (s : State) (v : Pins) : (s.withPins v).sweep = s.sweep := rfl
@[simp] theorem State.withPins_link (s : State) (v : Pins) : (s.withPins v).link = s.link := rfl
@[simp] theorem State.withPins_self (s : State) : s.withPins s.pins = s := rfl
@[simp] theorem State.withPins_withPins (s : State) (v w : Pins) : (s.withPins v).withPins w = s.withPins w := rfl

/-! ## withControl -/

@[simp] theorem State.withControl_pending (s : State) (v : Control) : (s.withControl v).pending = s.pending := rfl
@[simp] theorem State.withControl_pins (s : State) (v : Control) : (s.withControl v).pins = s.pins := rfl
@[simp] theorem State.withControl_control (s : State) (v : Control) : (s.withControl v).control = v := rfl
@[simp] theorem State.withControl_table (s : State) (v : Control) : (s.withControl v).table = s.table := rfl
@[simp] theorem State.withControl_store (s : State) (v : Control) : (s.withControl v).store = s.store := rfl
@[simp] theorem State.withControl_forward (s : State) (v : Control) : (s.withControl v).forward = s.forward := rfl
@[simp] theorem State.withControl_capture (s : State) (v : Control) : (s.withControl v).capture = s.capture := rfl
@[simp] theorem State.withControl_arbiter (s : State) (v : Control) : (s.withControl v).arbiter = s.arbiter := rfl
@[simp] theorem State.withControl_port (s : State) (v : Control) : (s.withControl v).port = s.port := rfl
@[simp] theorem State.withControl_access (s : State) (v : Control) : (s.withControl v).access = s.access := rfl
@[simp] theorem State.withControl_sweep (s : State) (v : Control) : (s.withControl v).sweep = s.sweep := rfl
@[simp] theorem State.withControl_link (s : State) (v : Control) : (s.withControl v).link = s.link := rfl
@[simp] theorem State.withControl_self (s : State) : s.withControl s.control = s := rfl
@[simp] theorem State.withControl_withControl (s : State) (v w : Control) : (s.withControl v).withControl w = s.withControl w := rfl

/-! ## withTable -/

@[simp] theorem State.withTable_pending (s : State) (v : List Slot) : (s.withTable v).pending = s.pending := rfl
@[simp] theorem State.withTable_pins (s : State) (v : List Slot) : (s.withTable v).pins = s.pins := rfl
@[simp] theorem State.withTable_control (s : State) (v : List Slot) : (s.withTable v).control = s.control := rfl
@[simp] theorem State.withTable_table (s : State) (v : List Slot) : (s.withTable v).table = v := rfl
@[simp] theorem State.withTable_store (s : State) (v : List Slot) : (s.withTable v).store = s.store := rfl
@[simp] theorem State.withTable_forward (s : State) (v : List Slot) : (s.withTable v).forward = s.forward := rfl
@[simp] theorem State.withTable_capture (s : State) (v : List Slot) : (s.withTable v).capture = s.capture := rfl
@[simp] theorem State.withTable_arbiter (s : State) (v : List Slot) : (s.withTable v).arbiter = s.arbiter := rfl
@[simp] theorem State.withTable_port (s : State) (v : List Slot) : (s.withTable v).port = s.port := rfl
@[simp] theorem State.withTable_access (s : State) (v : List Slot) : (s.withTable v).access = s.access := rfl
@[simp] theorem State.withTable_sweep (s : State) (v : List Slot) : (s.withTable v).sweep = s.sweep := rfl
@[simp] theorem State.withTable_link (s : State) (v : List Slot) : (s.withTable v).link = s.link := rfl
@[simp] theorem State.withTable_self (s : State) : s.withTable s.table = s := rfl
@[simp] theorem State.withTable_withTable (s : State) (v w : List Slot) : (s.withTable v).withTable w = s.withTable w := rfl

/-! ## withStore -/

@[simp] theorem State.withStore_pending (s : State) (v : Store) : (s.withStore v).pending = s.pending := rfl
@[simp] theorem State.withStore_pins (s : State) (v : Store) : (s.withStore v).pins = s.pins := rfl
@[simp] theorem State.withStore_control (s : State) (v : Store) : (s.withStore v).control = s.control := rfl
@[simp] theorem State.withStore_table (s : State) (v : Store) : (s.withStore v).table = s.table := rfl
@[simp] theorem State.withStore_store (s : State) (v : Store) : (s.withStore v).store = v := rfl
@[simp] theorem State.withStore_forward (s : State) (v : Store) : (s.withStore v).forward = s.forward := rfl
@[simp] theorem State.withStore_capture (s : State) (v : Store) : (s.withStore v).capture = s.capture := rfl
@[simp] theorem State.withStore_arbiter (s : State) (v : Store) : (s.withStore v).arbiter = s.arbiter := rfl
@[simp] theorem State.withStore_port (s : State) (v : Store) : (s.withStore v).port = s.port := rfl
@[simp] theorem State.withStore_access (s : State) (v : Store) : (s.withStore v).access = s.access := rfl
@[simp] theorem State.withStore_sweep (s : State) (v : Store) : (s.withStore v).sweep = s.sweep := rfl
@[simp] theorem State.withStore_link (s : State) (v : Store) : (s.withStore v).link = s.link := rfl
@[simp] theorem State.withStore_self (s : State) : s.withStore s.store = s := rfl
@[simp] theorem State.withStore_withStore (s : State) (v w : Store) : (s.withStore v).withStore w = s.withStore w := rfl

/-! ## withForward -/

@[simp] theorem State.withForward_pending (s : State) (v : Forwarding) : (s.withForward v).pending = s.pending := rfl
@[simp] theorem State.withForward_pins (s : State) (v : Forwarding) : (s.withForward v).pins = s.pins := rfl
@[simp] theorem State.withForward_control (s : State) (v : Forwarding) : (s.withForward v).control = s.control := rfl
@[simp] theorem State.withForward_table (s : State) (v : Forwarding) : (s.withForward v).table = s.table := rfl
@[simp] theorem State.withForward_store (s : State) (v : Forwarding) : (s.withForward v).store = s.store := rfl
@[simp] theorem State.withForward_forward (s : State) (v : Forwarding) : (s.withForward v).forward = v := rfl
@[simp] theorem State.withForward_capture (s : State) (v : Forwarding) : (s.withForward v).capture = s.capture := rfl
@[simp] theorem State.withForward_arbiter (s : State) (v : Forwarding) : (s.withForward v).arbiter = s.arbiter := rfl
@[simp] theorem State.withForward_port (s : State) (v : Forwarding) : (s.withForward v).port = s.port := rfl
@[simp] theorem State.withForward_access (s : State) (v : Forwarding) : (s.withForward v).access = s.access := rfl
@[simp] theorem State.withForward_sweep (s : State) (v : Forwarding) : (s.withForward v).sweep = s.sweep := rfl
@[simp] theorem State.withForward_link (s : State) (v : Forwarding) : (s.withForward v).link = s.link := rfl
@[simp] theorem State.withForward_self (s : State) : s.withForward s.forward = s := rfl
@[simp] theorem State.withForward_withForward (s : State) (v w : Forwarding) : (s.withForward v).withForward w = s.withForward w := rfl

/-! ## withCapture -/

@[simp] theorem State.withCapture_pending (s : State) (v : Capture) : (s.withCapture v).pending = s.pending := rfl
@[simp] theorem State.withCapture_pins (s : State) (v : Capture) : (s.withCapture v).pins = s.pins := rfl
@[simp] theorem State.withCapture_control (s : State) (v : Capture) : (s.withCapture v).control = s.control := rfl
@[simp] theorem State.withCapture_table (s : State) (v : Capture) : (s.withCapture v).table = s.table := rfl
@[simp] theorem State.withCapture_store (s : State) (v : Capture) : (s.withCapture v).store = s.store := rfl
@[simp] theorem State.withCapture_forward (s : State) (v : Capture) : (s.withCapture v).forward = s.forward := rfl
@[simp] theorem State.withCapture_capture (s : State) (v : Capture) : (s.withCapture v).capture = v := rfl
@[simp] theorem State.withCapture_arbiter (s : State) (v : Capture) : (s.withCapture v).arbiter = s.arbiter := rfl
@[simp] theorem State.withCapture_port (s : State) (v : Capture) : (s.withCapture v).port = s.port := rfl
@[simp] theorem State.withCapture_access (s : State) (v : Capture) : (s.withCapture v).access = s.access := rfl
@[simp] theorem State.withCapture_sweep (s : State) (v : Capture) : (s.withCapture v).sweep = s.sweep := rfl
@[simp] theorem State.withCapture_link (s : State) (v : Capture) : (s.withCapture v).link = s.link := rfl
@[simp] theorem State.withCapture_self (s : State) : s.withCapture s.capture = s := rfl
@[simp] theorem State.withCapture_withCapture (s : State) (v w : Capture) : (s.withCapture v).withCapture w = s.withCapture w := rfl

/-! ## withArbiter -/

@[simp] theorem State.withArbiter_pending (s : State) (v : Arbiter) : (s.withArbiter v).pending = s.pending := rfl
@[simp] theorem State.withArbiter_pins (s : State) (v : Arbiter) : (s.withArbiter v).pins = s.pins := rfl
@[simp] theorem State.withArbiter_control (s : State) (v : Arbiter) : (s.withArbiter v).control = s.control := rfl
@[simp] theorem State.withArbiter_table (s : State) (v : Arbiter) : (s.withArbiter v).table = s.table := rfl
@[simp] theorem State.withArbiter_store (s : State) (v : Arbiter) : (s.withArbiter v).store = s.store := rfl
@[simp] theorem State.withArbiter_forward (s : State) (v : Arbiter) : (s.withArbiter v).forward = s.forward := rfl
@[simp] theorem State.withArbiter_capture (s : State) (v : Arbiter) : (s.withArbiter v).capture = s.capture := rfl
@[simp] theorem State.withArbiter_arbiter (s : State) (v : Arbiter) : (s.withArbiter v).arbiter = v := rfl
@[simp] theorem State.withArbiter_port (s : State) (v : Arbiter) : (s.withArbiter v).port = s.port := rfl
@[simp] theorem State.withArbiter_access (s : State) (v : Arbiter) : (s.withArbiter v).access = s.access := rfl
@[simp] theorem State.withArbiter_sweep (s : State) (v : Arbiter) : (s.withArbiter v).sweep = s.sweep := rfl
@[simp] theorem State.withArbiter_link (s : State) (v : Arbiter) : (s.withArbiter v).link = s.link := rfl
@[simp] theorem State.withArbiter_self (s : State) : s.withArbiter s.arbiter = s := rfl
@[simp] theorem State.withArbiter_withArbiter (s : State) (v w : Arbiter) : (s.withArbiter v).withArbiter w = s.withArbiter w := rfl

/-! ## withPort -/

@[simp] theorem State.withPort_pending (s : State) (v : Port) : (s.withPort v).pending = s.pending := rfl
@[simp] theorem State.withPort_pins (s : State) (v : Port) : (s.withPort v).pins = s.pins := rfl
@[simp] theorem State.withPort_control (s : State) (v : Port) : (s.withPort v).control = s.control := rfl
@[simp] theorem State.withPort_table (s : State) (v : Port) : (s.withPort v).table = s.table := rfl
@[simp] theorem State.withPort_store (s : State) (v : Port) : (s.withPort v).store = s.store := rfl
@[simp] theorem State.withPort_forward (s : State) (v : Port) : (s.withPort v).forward = s.forward := rfl
@[simp] theorem State.withPort_capture (s : State) (v : Port) : (s.withPort v).capture = s.capture := rfl
@[simp] theorem State.withPort_arbiter (s : State) (v : Port) : (s.withPort v).arbiter = s.arbiter := rfl
@[simp] theorem State.withPort_port (s : State) (v : Port) : (s.withPort v).port = v := rfl
@[simp] theorem State.withPort_access (s : State) (v : Port) : (s.withPort v).access = s.access := rfl
@[simp] theorem State.withPort_sweep (s : State) (v : Port) : (s.withPort v).sweep = s.sweep := rfl
@[simp] theorem State.withPort_link (s : State) (v : Port) : (s.withPort v).link = s.link := rfl
@[simp] theorem State.withPort_self (s : State) : s.withPort s.port = s := rfl
@[simp] theorem State.withPort_withPort (s : State) (v w : Port) : (s.withPort v).withPort w = s.withPort w := rfl

/-! ## withAccess -/

@[simp] theorem State.withAccess_pending (s : State) (v : Access) : (s.withAccess v).pending = s.pending := rfl
@[simp] theorem State.withAccess_pins (s : State) (v : Access) : (s.withAccess v).pins = s.pins := rfl
@[simp] theorem State.withAccess_control (s : State) (v : Access) : (s.withAccess v).control = s.control := rfl
@[simp] theorem State.withAccess_table (s : State) (v : Access) : (s.withAccess v).table = s.table := rfl
@[simp] theorem State.withAccess_store (s : State) (v : Access) : (s.withAccess v).store = s.store := rfl
@[simp] theorem State.withAccess_forward (s : State) (v : Access) : (s.withAccess v).forward = s.forward := rfl
@[simp] theorem State.withAccess_capture (s : State) (v : Access) : (s.withAccess v).capture = s.capture := rfl
@[simp] theorem State.withAccess_arbiter (s : State) (v : Access) : (s.withAccess v).arbiter = s.arbiter := rfl
@[simp] theorem State.withAccess_port (s : State) (v : Access) : (s.withAccess v).port = s.port := rfl
@[simp] theorem State.withAccess_access (s : State) (v : Access) : (s.withAccess v).access = v := rfl
@[simp] theorem State.withAccess_sweep (s : State) (v : Access) : (s.withAccess v).sweep = s.sweep := rfl
@[simp] theorem State.withAccess_link (s : State) (v : Access) : (s.withAccess v).link = s.link := rfl
@[simp] theorem State.withAccess_self (s : State) : s.withAccess s.access = s := rfl
@[simp] theorem State.withAccess_withAccess (s : State) (v w : Access) : (s.withAccess v).withAccess w = s.withAccess w := rfl

/-! ## withSweep -/

@[simp] theorem State.withSweep_pending (s : State) (v : SweepEngine) : (s.withSweep v).pending = s.pending := rfl
@[simp] theorem State.withSweep_pins (s : State) (v : SweepEngine) : (s.withSweep v).pins = s.pins := rfl
@[simp] theorem State.withSweep_control (s : State) (v : SweepEngine) : (s.withSweep v).control = s.control := rfl
@[simp] theorem State.withSweep_table (s : State) (v : SweepEngine) : (s.withSweep v).table = s.table := rfl
@[simp] theorem State.withSweep_store (s : State) (v : SweepEngine) : (s.withSweep v).store = s.store := rfl
@[simp] theorem State.withSweep_forward (s : State) (v : SweepEngine) : (s.withSweep v).forward = s.forward := rfl
@[simp] theorem State.withSweep_capture (s : State) (v : SweepEngine) : (s.withSweep v).capture = s.capture := rfl
@[simp] theorem State.withSweep_arbiter (s : State) (v : SweepEngine) : (s.withSweep v).arbiter = s.arbiter := rfl
@[simp] theorem State.withSweep_port (s : State) (v : SweepEngine) : (s.withSweep v).port = s.port := rfl
@[simp] theorem State.withSweep_access (s : State) (v : SweepEngine) : (s.withSweep v).access = s.access := rfl
@[simp] theorem State.withSweep_sweep (s : State) (v : SweepEngine) : (s.withSweep v).sweep = v := rfl
@[simp] theorem State.withSweep_link (s : State) (v : SweepEngine) : (s.withSweep v).link = s.link := rfl
@[simp] theorem State.withSweep_self (s : State) : s.withSweep s.sweep = s := rfl
@[simp] theorem State.withSweep_withSweep (s : State) (v w : SweepEngine) : (s.withSweep v).withSweep w = s.withSweep w := rfl

/-! ## withLink -/

@[simp] theorem State.withLink_pending (s : State) (v : LinkInterface) : (s.withLink v).pending = s.pending := rfl
@[simp] theorem State.withLink_pins (s : State) (v : LinkInterface) : (s.withLink v).pins = s.pins := rfl
@[simp] theorem State.withLink_control (s : State) (v : LinkInterface) : (s.withLink v).control = s.control := rfl
@[simp] theorem State.withLink_table (s : State) (v : LinkInterface) : (s.withLink v).table = s.table := rfl
@[simp] theorem State.withLink_store (s : State) (v : LinkInterface) : (s.withLink v).store = s.store := rfl
@[simp] theorem State.withLink_forward (s : State) (v : LinkInterface) : (s.withLink v).forward = s.forward := rfl
@[simp] theorem State.withLink_capture (s : State) (v : LinkInterface) : (s.withLink v).capture = s.capture := rfl
@[simp] theorem State.withLink_arbiter (s : State) (v : LinkInterface) : (s.withLink v).arbiter = s.arbiter := rfl
@[simp] theorem State.withLink_port (s : State) (v : LinkInterface) : (s.withLink v).port = s.port := rfl
@[simp] theorem State.withLink_access (s : State) (v : LinkInterface) : (s.withLink v).access = s.access := rfl
@[simp] theorem State.withLink_sweep (s : State) (v : LinkInterface) : (s.withLink v).sweep = s.sweep := rfl
@[simp] theorem State.withLink_link (s : State) (v : LinkInterface) : (s.withLink v).link = v := rfl
@[simp] theorem State.withLink_self (s : State) : s.withLink s.link = s := rfl
@[simp] theorem State.withLink_withLink (s : State) (v w : LinkInterface) : (s.withLink v).withLink w = s.withLink w := rfl

/-! ## One slot replaced -/

@[simp] theorem State.setSlot_pending (s : State) (i : Nat) (x : Slot) : (s.setSlot i x).pending = s.pending := rfl
@[simp] theorem State.setSlot_pins (s : State) (i : Nat) (x : Slot) : (s.setSlot i x).pins = s.pins := rfl
@[simp] theorem State.setSlot_control (s : State) (i : Nat) (x : Slot) : (s.setSlot i x).control = s.control := rfl
@[simp] theorem State.setSlot_store (s : State) (i : Nat) (x : Slot) : (s.setSlot i x).store = s.store := rfl
@[simp] theorem State.setSlot_forward (s : State) (i : Nat) (x : Slot) : (s.setSlot i x).forward = s.forward := rfl
@[simp] theorem State.setSlot_capture (s : State) (i : Nat) (x : Slot) : (s.setSlot i x).capture = s.capture := rfl
@[simp] theorem State.setSlot_arbiter (s : State) (i : Nat) (x : Slot) : (s.setSlot i x).arbiter = s.arbiter := rfl
@[simp] theorem State.setSlot_port (s : State) (i : Nat) (x : Slot) : (s.setSlot i x).port = s.port := rfl
@[simp] theorem State.setSlot_access (s : State) (i : Nat) (x : Slot) : (s.setSlot i x).access = s.access := rfl
@[simp] theorem State.setSlot_sweep (s : State) (i : Nat) (x : Slot) : (s.setSlot i x).sweep = s.sweep := rfl
@[simp] theorem State.setSlot_link (s : State) (i : Nat) (x : Slot) : (s.setSlot i x).link = s.link := rfl

@[simp] theorem State.setStatus_pending (s : State) (i : Nat) (x : SlotStatus) : (s.setStatus i x).pending = s.pending := rfl
@[simp] theorem State.setStatus_pins (s : State) (i : Nat) (x : SlotStatus) : (s.setStatus i x).pins = s.pins := rfl
@[simp] theorem State.setStatus_control (s : State) (i : Nat) (x : SlotStatus) : (s.setStatus i x).control = s.control := rfl
@[simp] theorem State.setStatus_store (s : State) (i : Nat) (x : SlotStatus) : (s.setStatus i x).store = s.store := rfl
@[simp] theorem State.setStatus_forward (s : State) (i : Nat) (x : SlotStatus) : (s.setStatus i x).forward = s.forward := rfl
@[simp] theorem State.setStatus_capture (s : State) (i : Nat) (x : SlotStatus) : (s.setStatus i x).capture = s.capture := rfl
@[simp] theorem State.setStatus_arbiter (s : State) (i : Nat) (x : SlotStatus) : (s.setStatus i x).arbiter = s.arbiter := rfl
@[simp] theorem State.setStatus_port (s : State) (i : Nat) (x : SlotStatus) : (s.setStatus i x).port = s.port := rfl
@[simp] theorem State.setStatus_access (s : State) (i : Nat) (x : SlotStatus) : (s.setStatus i x).access = s.access := rfl
@[simp] theorem State.setStatus_sweep (s : State) (i : Nat) (x : SlotStatus) : (s.setStatus i x).sweep = s.sweep := rfl
@[simp] theorem State.setStatus_link (s : State) (i : Nat) (x : SlotStatus) : (s.setStatus i x).link = s.link := rfl

/-- The table with one slot replaced. -/
theorem State.setSlot_table (s : State) (i : Nat) (x : Slot) : (s.setSlot i x).table = s.table.set i x := rfl

/-- The table with one status replaced. -/
theorem State.setStatus_table (s : State) (i : Nat) (x : SlotStatus) :
    (s.setStatus i x).table = s.table.set i { s.slot i with status := x } := rfl

/-- A slot of the table reads back as it was written. -/
theorem State.slot_setSlot_self (s : State) (i : Nat) (x : Slot) (h : i < s.table.length) :
    (s.setSlot i x).slot i = x := by
  simp [State.slot, slotAt, State.setSlot_table, List.getD_eq_getElem?_getD, h]

/-- Writing one slot leaves every other slot. -/
theorem State.slot_setSlot_other (s : State) (i j : Nat) (x : Slot) (h : j ≠ i) :
    (s.setSlot i x).slot j = s.slot j := by
  simp [State.slot, slotAt, State.setSlot_table, List.getD_eq_getElem?_getD, List.getElem?_set_ne (Ne.symm h)]

/-- Two states with equal units are equal. -/
theorem State.eq_of_units {s t : State} (h₁ : s.pending = t.pending) (h₂ : s.pins = t.pins)
    (h₃ : s.control = t.control) (h₄ : s.table = t.table) (h₅ : s.store = t.store) (h₆ : s.forward = t.forward)
    (h₇ : s.capture = t.capture) (h₈ : s.arbiter = t.arbiter) (h₉ : s.port = t.port) (h₁₀ : s.access = t.access)
    (h₁₁ : s.sweep = t.sweep) (h₁₂ : s.link = t.link) : s = t := by
  cases s; cases t; simp_all

end Sys2Proof.Machine
end

