-- ==== Sys2Proof/Laws/Frames.lean ====
section
/-! SUPPORT. Frames: the units of State that each shared operation leaves as they are. -/

namespace Sys2Proof.Machine

set_option Elab.async false

/-! ## Flags and operations -/

@[simp] theorem raise_pending (c : Cause) (s : State) : (raise c s).pending = s.pending := by
  simp [raise]
@[simp] theorem raise_pins (c : Cause) (s : State) : (raise c s).pins = s.pins := by
  simp [raise]
@[simp] theorem raise_table (c : Cause) (s : State) : (raise c s).table = s.table := by
  simp [raise]
@[simp] theorem raise_store (c : Cause) (s : State) : (raise c s).store = s.store := by
  simp [raise]
@[simp] theorem raise_forward (c : Cause) (s : State) : (raise c s).forward = s.forward := by
  simp [raise]
@[simp] theorem raise_capture (c : Cause) (s : State) : (raise c s).capture = s.capture := by
  simp [raise]
@[simp] theorem raise_arbiter (c : Cause) (s : State) : (raise c s).arbiter = s.arbiter := by
  simp [raise]
@[simp] theorem raise_port (c : Cause) (s : State) : (raise c s).port = s.port := by
  simp [raise]
@[simp] theorem raise_access (c : Cause) (s : State) : (raise c s).access = s.access := by
  simp [raise]
@[simp] theorem raise_sweep (c : Cause) (s : State) : (raise c s).sweep = s.sweep := by
  simp [raise]
@[simp] theorem raise_link (c : Cause) (s : State) : (raise c s).link = s.link := by
  simp [raise]

@[simp] theorem checkLevel_pending (s : State) : (checkLevel s).pending = s.pending := by
  unfold checkLevel; (repeat' split) <;> simp
@[simp] theorem checkLevel_pins (s : State) : (checkLevel s).pins = s.pins := by
  unfold checkLevel; (repeat' split) <;> simp
@[simp] theorem checkLevel_table (s : State) : (checkLevel s).table = s.table := by
  unfold checkLevel; (repeat' split) <;> simp
@[simp] theorem checkLevel_store (s : State) : (checkLevel s).store = s.store := by
  unfold checkLevel; (repeat' split) <;> simp
@[simp] theorem checkLevel_forward (s : State) : (checkLevel s).forward = s.forward := by
  unfold checkLevel; (repeat' split) <;> simp
@[simp] theorem checkLevel_capture (s : State) : (checkLevel s).capture = s.capture := by
  unfold checkLevel; (repeat' split) <;> simp
@[simp] theorem checkLevel_arbiter (s : State) : (checkLevel s).arbiter = s.arbiter := by
  unfold checkLevel; (repeat' split) <;> simp
@[simp] theorem checkLevel_port (s : State) : (checkLevel s).port = s.port := by
  unfold checkLevel; (repeat' split) <;> simp
@[simp] theorem checkLevel_access (s : State) : (checkLevel s).access = s.access := by
  unfold checkLevel; (repeat' split) <;> simp
@[simp] theorem checkLevel_sweep (s : State) : (checkLevel s).sweep = s.sweep := by
  unfold checkLevel; (repeat' split) <;> simp
@[simp] theorem checkLevel_link (s : State) : (checkLevel s).link = s.link := by
  unfold checkLevel; (repeat' split) <;> simp

@[simp] theorem forceBypass_pending (s : State) : (forceBypass s).pending = s.pending := by
  simp [forceBypass]
@[simp] theorem forceBypass_pins (s : State) : (forceBypass s).pins = s.pins := by
  simp [forceBypass]
@[simp] theorem forceBypass_table (s : State) : (forceBypass s).table = s.table := by
  simp [forceBypass]
@[simp] theorem forceBypass_store (s : State) : (forceBypass s).store = s.store := by
  simp [forceBypass]
@[simp] theorem forceBypass_forward (s : State) : (forceBypass s).forward = s.forward := by
  simp [forceBypass]
@[simp] theorem forceBypass_capture (s : State) : (forceBypass s).capture = s.capture := by
  simp [forceBypass]
@[simp] theorem forceBypass_arbiter (s : State) : (forceBypass s).arbiter = s.arbiter := by
  simp [forceBypass]
@[simp] theorem forceBypass_port (s : State) : (forceBypass s).port = s.port := by
  simp [forceBypass]
@[simp] theorem forceBypass_access (s : State) : (forceBypass s).access = s.access := by
  simp [forceBypass]
@[simp] theorem forceBypass_sweep (s : State) : (forceBypass s).sweep = s.sweep := by
  simp [forceBypass]
@[simp] theorem forceBypass_link (s : State) : (forceBypass s).link = s.link := by
  simp [forceBypass]

@[simp] theorem sampleFbyp_pending (s : State) : (sampleFbyp s).pending = s.pending := by
  unfold sampleFbyp; (repeat' split) <;> simp
@[simp] theorem sampleFbyp_pins (s : State) : (sampleFbyp s).pins = s.pins := by
  unfold sampleFbyp; (repeat' split) <;> simp
@[simp] theorem sampleFbyp_table (s : State) : (sampleFbyp s).table = s.table := by
  unfold sampleFbyp; (repeat' split) <;> simp
@[simp] theorem sampleFbyp_store (s : State) : (sampleFbyp s).store = s.store := by
  unfold sampleFbyp; (repeat' split) <;> simp
@[simp] theorem sampleFbyp_forward (s : State) : (sampleFbyp s).forward = s.forward := by
  unfold sampleFbyp; (repeat' split) <;> simp
@[simp] theorem sampleFbyp_capture (s : State) : (sampleFbyp s).capture = s.capture := by
  unfold sampleFbyp; (repeat' split) <;> simp
@[simp] theorem sampleFbyp_arbiter (s : State) : (sampleFbyp s).arbiter = s.arbiter := by
  unfold sampleFbyp; (repeat' split) <;> simp
@[simp] theorem sampleFbyp_port (s : State) : (sampleFbyp s).port = s.port := by
  unfold sampleFbyp; (repeat' split) <;> simp
@[simp] theorem sampleFbyp_access (s : State) : (sampleFbyp s).access = s.access := by
  unfold sampleFbyp; (repeat' split) <;> simp
@[simp] theorem sampleFbyp_sweep (s : State) : (sampleFbyp s).sweep = s.sweep := by
  unfold sampleFbyp; (repeat' split) <;> simp
@[simp] theorem sampleFbyp_link (s : State) : (sampleFbyp s).link = s.link := by
  unfold sampleFbyp; (repeat' split) <;> simp

@[simp] theorem updateRecord_pending (f : SweepRecord → SweepRecord) (s : State) : (updateRecord f s).pending = s.pending := by
  simp [updateRecord]
@[simp] theorem updateRecord_pins (f : SweepRecord → SweepRecord) (s : State) : (updateRecord f s).pins = s.pins := by
  simp [updateRecord]
@[simp] theorem updateRecord_control (f : SweepRecord → SweepRecord) (s : State) : (updateRecord f s).control = s.control := by
  simp [updateRecord]
@[simp] theorem updateRecord_table (f : SweepRecord → SweepRecord) (s : State) : (updateRecord f s).table = s.table := by
  simp [updateRecord]
@[simp] theorem updateRecord_store (f : SweepRecord → SweepRecord) (s : State) : (updateRecord f s).store = s.store := by
  simp [updateRecord]
@[simp] theorem updateRecord_forward (f : SweepRecord → SweepRecord) (s : State) : (updateRecord f s).forward = s.forward := by
  simp [updateRecord]
@[simp] theorem updateRecord_capture (f : SweepRecord → SweepRecord) (s : State) : (updateRecord f s).capture = s.capture := by
  simp [updateRecord]
@[simp] theorem updateRecord_arbiter (f : SweepRecord → SweepRecord) (s : State) : (updateRecord f s).arbiter = s.arbiter := by
  simp [updateRecord]
@[simp] theorem updateRecord_port (f : SweepRecord → SweepRecord) (s : State) : (updateRecord f s).port = s.port := by
  simp [updateRecord]
@[simp] theorem updateRecord_access (f : SweepRecord → SweepRecord) (s : State) : (updateRecord f s).access = s.access := by
  simp [updateRecord]
@[simp] theorem updateRecord_link (f : SweepRecord → SweepRecord) (s : State) : (updateRecord f s).link = s.link := by
  simp [updateRecord]

@[simp] theorem reportWrite_pending (a : Nat) (ws : List WriteWord) (s : State) : (reportWrite a ws s).pending = s.pending := by
  unfold reportWrite; (repeat' split) <;> simp
@[simp] theorem reportWrite_pins (a : Nat) (ws : List WriteWord) (s : State) : (reportWrite a ws s).pins = s.pins := by
  unfold reportWrite; (repeat' split) <;> simp
@[simp] theorem reportWrite_control (a : Nat) (ws : List WriteWord) (s : State) : (reportWrite a ws s).control = s.control := by
  unfold reportWrite; (repeat' split) <;> simp
@[simp] theorem reportWrite_table (a : Nat) (ws : List WriteWord) (s : State) : (reportWrite a ws s).table = s.table := by
  unfold reportWrite; (repeat' split) <;> simp
@[simp] theorem reportWrite_store (a : Nat) (ws : List WriteWord) (s : State) : (reportWrite a ws s).store = s.store := by
  unfold reportWrite; (repeat' split) <;> simp
@[simp] theorem reportWrite_forward (a : Nat) (ws : List WriteWord) (s : State) : (reportWrite a ws s).forward = s.forward := by
  unfold reportWrite; (repeat' split) <;> simp
@[simp] theorem reportWrite_capture (a : Nat) (ws : List WriteWord) (s : State) : (reportWrite a ws s).capture = s.capture := by
  unfold reportWrite; (repeat' split) <;> simp
@[simp] theorem reportWrite_arbiter (a : Nat) (ws : List WriteWord) (s : State) : (reportWrite a ws s).arbiter = s.arbiter := by
  unfold reportWrite; (repeat' split) <;> simp
@[simp] theorem reportWrite_port (a : Nat) (ws : List WriteWord) (s : State) : (reportWrite a ws s).port = s.port := by
  unfold reportWrite; (repeat' split) <;> simp
@[simp] theorem reportWrite_access (a : Nat) (ws : List WriteWord) (s : State) : (reportWrite a ws s).access = s.access := by
  unfold reportWrite; (repeat' split) <;> simp
@[simp] theorem reportWrite_link (a : Nat) (ws : List WriteWord) (s : State) : (reportWrite a ws s).link = s.link := by
  unfold reportWrite; (repeat' split) <;> simp

@[simp] theorem reportShadowWrite_pending (o : Nat) (l : Lanes) (s : State) : (reportShadowWrite o l s).pending = s.pending := by
  unfold reportShadowWrite; (repeat' split) <;> simp
@[simp] theorem reportShadowWrite_pins (o : Nat) (l : Lanes) (s : State) : (reportShadowWrite o l s).pins = s.pins := by
  unfold reportShadowWrite; (repeat' split) <;> simp
@[simp] theorem reportShadowWrite_control (o : Nat) (l : Lanes) (s : State) : (reportShadowWrite o l s).control = s.control := by
  unfold reportShadowWrite; (repeat' split) <;> simp
@[simp] theorem reportShadowWrite_table (o : Nat) (l : Lanes) (s : State) : (reportShadowWrite o l s).table = s.table := by
  unfold reportShadowWrite; (repeat' split) <;> simp
@[simp] theorem reportShadowWrite_store (o : Nat) (l : Lanes) (s : State) : (reportShadowWrite o l s).store = s.store := by
  unfold reportShadowWrite; (repeat' split) <;> simp
@[simp] theorem reportShadowWrite_forward (o : Nat) (l : Lanes) (s : State) : (reportShadowWrite o l s).forward = s.forward := by
  unfold reportShadowWrite; (repeat' split) <;> simp
@[simp] theorem reportShadowWrite_capture (o : Nat) (l : Lanes) (s : State) : (reportShadowWrite o l s).capture = s.capture := by
  unfold reportShadowWrite; (repeat' split) <;> simp
@[simp] theorem reportShadowWrite_arbiter (o : Nat) (l : Lanes) (s : State) : (reportShadowWrite o l s).arbiter = s.arbiter := by
  unfold reportShadowWrite; (repeat' split) <;> simp
@[simp] theorem reportShadowWrite_port (o : Nat) (l : Lanes) (s : State) : (reportShadowWrite o l s).port = s.port := by
  unfold reportShadowWrite; (repeat' split) <;> simp
@[simp] theorem reportShadowWrite_access (o : Nat) (l : Lanes) (s : State) : (reportShadowWrite o l s).access = s.access := by
  unfold reportShadowWrite; (repeat' split) <;> simp
@[simp] theorem reportShadowWrite_link (o : Nat) (l : Lanes) (s : State) : (reportShadowWrite o l s).link = s.link := by
  unfold reportShadowWrite; (repeat' split) <;> simp

@[simp] theorem reportHandoff_pending (c : SlotConfig) (s : State) : (reportHandoff c s).pending = s.pending := by
  unfold reportHandoff; (repeat' split) <;> simp
@[simp] theorem reportHandoff_pins (c : SlotConfig) (s : State) : (reportHandoff c s).pins = s.pins := by
  unfold reportHandoff; (repeat' split) <;> simp
@[simp] theorem reportHandoff_control (c : SlotConfig) (s : State) : (reportHandoff c s).control = s.control := by
  unfold reportHandoff; (repeat' split) <;> simp
@[simp] theorem reportHandoff_table (c : SlotConfig) (s : State) : (reportHandoff c s).table = s.table := by
  unfold reportHandoff; (repeat' split) <;> simp
@[simp] theorem reportHandoff_store (c : SlotConfig) (s : State) : (reportHandoff c s).store = s.store := by
  unfold reportHandoff; (repeat' split) <;> simp
@[simp] theorem reportHandoff_forward (c : SlotConfig) (s : State) : (reportHandoff c s).forward = s.forward := by
  unfold reportHandoff; (repeat' split) <;> simp
@[simp] theorem reportHandoff_capture (c : SlotConfig) (s : State) : (reportHandoff c s).capture = s.capture := by
  unfold reportHandoff; (repeat' split) <;> simp
@[simp] theorem reportHandoff_arbiter (c : SlotConfig) (s : State) : (reportHandoff c s).arbiter = s.arbiter := by
  unfold reportHandoff; (repeat' split) <;> simp
@[simp] theorem reportHandoff_port (c : SlotConfig) (s : State) : (reportHandoff c s).port = s.port := by
  unfold reportHandoff; (repeat' split) <;> simp
@[simp] theorem reportHandoff_access (c : SlotConfig) (s : State) : (reportHandoff c s).access = s.access := by
  unfold reportHandoff; (repeat' split) <;> simp
@[simp] theorem reportHandoff_link (c : SlotConfig) (s : State) : (reportHandoff c s).link = s.link := by
  unfold reportHandoff; (repeat' split) <;> simp

@[simp] theorem complete_pending (st : Status) (p : List Byte) (s : State) : (complete st p s).pending = s.pending := by
  unfold complete; (repeat' split) <;> simp
@[simp] theorem complete_pins (st : Status) (p : List Byte) (s : State) : (complete st p s).pins = s.pins := by
  unfold complete; (repeat' split) <;> simp
@[simp] theorem complete_control (st : Status) (p : List Byte) (s : State) : (complete st p s).control = s.control := by
  unfold complete; (repeat' split) <;> simp
@[simp] theorem complete_table (st : Status) (p : List Byte) (s : State) : (complete st p s).table = s.table := by
  unfold complete; (repeat' split) <;> simp
@[simp] theorem complete_store (st : Status) (p : List Byte) (s : State) : (complete st p s).store = s.store := by
  unfold complete; (repeat' split) <;> simp
@[simp] theorem complete_forward (st : Status) (p : List Byte) (s : State) : (complete st p s).forward = s.forward := by
  unfold complete; (repeat' split) <;> simp
@[simp] theorem complete_capture (st : Status) (p : List Byte) (s : State) : (complete st p s).capture = s.capture := by
  unfold complete; (repeat' split) <;> simp
@[simp] theorem complete_arbiter (st : Status) (p : List Byte) (s : State) : (complete st p s).arbiter = s.arbiter := by
  unfold complete; (repeat' split) <;> simp
@[simp] theorem complete_port (st : Status) (p : List Byte) (s : State) : (complete st p s).port = s.port := by
  unfold complete; (repeat' split) <;> simp
@[simp] theorem complete_access (st : Status) (p : List Byte) (s : State) : (complete st p s).access = s.access := by
  unfold complete; (repeat' split) <;> simp
@[simp] theorem complete_sweep (st : Status) (p : List Byte) (s : State) : (complete st p s).sweep = s.sweep := by
  unfold complete; (repeat' split) <;> simp

@[simp] theorem await_pending (e : Executing) (s : State) : (await e s).pending = s.pending := by
  simp [await]
@[simp] theorem await_pins (e : Executing) (s : State) : (await e s).pins = s.pins := by
  simp [await]
@[simp] theorem await_control (e : Executing) (s : State) : (await e s).control = s.control := by
  simp [await]
@[simp] theorem await_table (e : Executing) (s : State) : (await e s).table = s.table := by
  simp [await]
@[simp] theorem await_store (e : Executing) (s : State) : (await e s).store = s.store := by
  simp [await]
@[simp] theorem await_forward (e : Executing) (s : State) : (await e s).forward = s.forward := by
  simp [await]
@[simp] theorem await_capture (e : Executing) (s : State) : (await e s).capture = s.capture := by
  simp [await]
@[simp] theorem await_arbiter (e : Executing) (s : State) : (await e s).arbiter = s.arbiter := by
  simp [await]
@[simp] theorem await_port (e : Executing) (s : State) : (await e s).port = s.port := by
  simp [await]
@[simp] theorem await_access (e : Executing) (s : State) : (await e s).access = s.access := by
  simp [await]
@[simp] theorem await_sweep (e : Executing) (s : State) : (await e s).sweep = s.sweep := by
  simp [await]

@[simp] theorem refuse_pending (q : Byte) (st : Status) (s : State) : (refuse q st s).pending = s.pending := by
  simp [refuse]
@[simp] theorem refuse_pins (q : Byte) (st : Status) (s : State) : (refuse q st s).pins = s.pins := by
  simp [refuse]
@[simp] theorem refuse_table (q : Byte) (st : Status) (s : State) : (refuse q st s).table = s.table := by
  simp [refuse]
@[simp] theorem refuse_store (q : Byte) (st : Status) (s : State) : (refuse q st s).store = s.store := by
  simp [refuse]
@[simp] theorem refuse_forward (q : Byte) (st : Status) (s : State) : (refuse q st s).forward = s.forward := by
  simp [refuse]
@[simp] theorem refuse_capture (q : Byte) (st : Status) (s : State) : (refuse q st s).capture = s.capture := by
  simp [refuse]
@[simp] theorem refuse_arbiter (q : Byte) (st : Status) (s : State) : (refuse q st s).arbiter = s.arbiter := by
  simp [refuse]
@[simp] theorem refuse_port (q : Byte) (st : Status) (s : State) : (refuse q st s).port = s.port := by
  simp [refuse]
@[simp] theorem refuse_access (q : Byte) (st : Status) (s : State) : (refuse q st s).access = s.access := by
  simp [refuse]
@[simp] theorem refuse_sweep (q : Byte) (st : Status) (s : State) : (refuse q st s).sweep = s.sweep := by
  simp [refuse]

@[simp] theorem enqueue_pending (q : QueuedCommand) (s : State) : (enqueue q s).pending = s.pending := by
  simp [enqueue]
@[simp] theorem enqueue_pins (q : QueuedCommand) (s : State) : (enqueue q s).pins = s.pins := by
  simp [enqueue]
@[simp] theorem enqueue_control (q : QueuedCommand) (s : State) : (enqueue q s).control = s.control := by
  simp [enqueue]
@[simp] theorem enqueue_table (q : QueuedCommand) (s : State) : (enqueue q s).table = s.table := by
  simp [enqueue]
@[simp] theorem enqueue_store (q : QueuedCommand) (s : State) : (enqueue q s).store = s.store := by
  simp [enqueue]
@[simp] theorem enqueue_forward (q : QueuedCommand) (s : State) : (enqueue q s).forward = s.forward := by
  simp [enqueue]
@[simp] theorem enqueue_capture (q : QueuedCommand) (s : State) : (enqueue q s).capture = s.capture := by
  simp [enqueue]
@[simp] theorem enqueue_arbiter (q : QueuedCommand) (s : State) : (enqueue q s).arbiter = s.arbiter := by
  simp [enqueue]
@[simp] theorem enqueue_port (q : QueuedCommand) (s : State) : (enqueue q s).port = s.port := by
  simp [enqueue]
@[simp] theorem enqueue_access (q : QueuedCommand) (s : State) : (enqueue q s).access = s.access := by
  simp [enqueue]
@[simp] theorem enqueue_sweep (q : QueuedCommand) (s : State) : (enqueue q s).sweep = s.sweep := by
  simp [enqueue]

@[simp] theorem reserve_pending (q : Byte) (s : State) : (reserve q s).pending = s.pending := by
  simp [reserve]
@[simp] theorem reserve_pins (q : Byte) (s : State) : (reserve q s).pins = s.pins := by
  simp [reserve]
@[simp] theorem reserve_control (q : Byte) (s : State) : (reserve q s).control = s.control := by
  simp [reserve]
@[simp] theorem reserve_table (q : Byte) (s : State) : (reserve q s).table = s.table := by
  simp [reserve]
@[simp] theorem reserve_store (q : Byte) (s : State) : (reserve q s).store = s.store := by
  simp [reserve]
@[simp] theorem reserve_forward (q : Byte) (s : State) : (reserve q s).forward = s.forward := by
  simp [reserve]
@[simp] theorem reserve_capture (q : Byte) (s : State) : (reserve q s).capture = s.capture := by
  simp [reserve]
@[simp] theorem reserve_arbiter (q : Byte) (s : State) : (reserve q s).arbiter = s.arbiter := by
  simp [reserve]
@[simp] theorem reserve_port (q : Byte) (s : State) : (reserve q s).port = s.port := by
  simp [reserve]
@[simp] theorem reserve_access (q : Byte) (s : State) : (reserve q s).access = s.access := by
  simp [reserve]
@[simp] theorem reserve_sweep (q : Byte) (s : State) : (reserve q s).sweep = s.sweep := by
  simp [reserve]

/-! ## Arbiter -/

@[simp] theorem issue_pending (r : BusRequest) (s : State) : (issue r s).pending = s.pending := by
  simp [issue]
@[simp] theorem issue_pins (r : BusRequest) (s : State) : (issue r s).pins = s.pins := by
  simp [issue]
@[simp] theorem issue_control (r : BusRequest) (s : State) : (issue r s).control = s.control := by
  simp [issue]
@[simp] theorem issue_table (r : BusRequest) (s : State) : (issue r s).table = s.table := by
  simp [issue]
@[simp] theorem issue_store (r : BusRequest) (s : State) : (issue r s).store = s.store := by
  simp [issue]
@[simp] theorem issue_forward (r : BusRequest) (s : State) : (issue r s).forward = s.forward := by
  simp [issue]
@[simp] theorem issue_capture (r : BusRequest) (s : State) : (issue r s).capture = s.capture := by
  simp [issue]
@[simp] theorem issue_arbiter (r : BusRequest) (s : State) : (issue r s).arbiter = s.arbiter := by
  simp [issue]
@[simp] theorem issue_access (r : BusRequest) (s : State) : (issue r s).access = s.access := by
  simp [issue]
@[simp] theorem issue_sweep (r : BusRequest) (s : State) : (issue r s).sweep = s.sweep := by
  simp [issue]
@[simp] theorem issue_link (r : BusRequest) (s : State) : (issue r s).link = s.link := by
  simp [issue]

@[simp] theorem issueReported_pending (r : BusRequest) (s : State) : (issueReported r s).pending = s.pending := by
  unfold issueReported; (repeat' split) <;> simp
@[simp] theorem issueReported_pins (r : BusRequest) (s : State) : (issueReported r s).pins = s.pins := by
  unfold issueReported; (repeat' split) <;> simp
@[simp] theorem issueReported_control (r : BusRequest) (s : State) : (issueReported r s).control = s.control := by
  unfold issueReported; (repeat' split) <;> simp
@[simp] theorem issueReported_table (r : BusRequest) (s : State) : (issueReported r s).table = s.table := by
  unfold issueReported; (repeat' split) <;> simp
@[simp] theorem issueReported_store (r : BusRequest) (s : State) : (issueReported r s).store = s.store := by
  unfold issueReported; (repeat' split) <;> simp
@[simp] theorem issueReported_forward (r : BusRequest) (s : State) : (issueReported r s).forward = s.forward := by
  unfold issueReported; (repeat' split) <;> simp
@[simp] theorem issueReported_capture (r : BusRequest) (s : State) : (issueReported r s).capture = s.capture := by
  unfold issueReported; (repeat' split) <;> simp
@[simp] theorem issueReported_arbiter (r : BusRequest) (s : State) : (issueReported r s).arbiter = s.arbiter := by
  unfold issueReported; (repeat' split) <;> simp
@[simp] theorem issueReported_access (r : BusRequest) (s : State) : (issueReported r s).access = s.access := by
  unfold issueReported; (repeat' split) <;> simp
@[simp] theorem issueReported_link (r : BusRequest) (s : State) : (issueReported r s).link = s.link := by
  unfold issueReported; (repeat' split) <;> simp

@[simp] theorem issueForward_pending (s : State) : (issueForward s).pending = s.pending := by
  unfold issueForward; (repeat' split) <;> simp
@[simp] theorem issueForward_pins (s : State) : (issueForward s).pins = s.pins := by
  unfold issueForward; (repeat' split) <;> simp
@[simp] theorem issueForward_control (s : State) : (issueForward s).control = s.control := by
  unfold issueForward; (repeat' split) <;> simp
@[simp] theorem issueForward_table (s : State) : (issueForward s).table = s.table := by
  unfold issueForward; (repeat' split) <;> simp
@[simp] theorem issueForward_store (s : State) : (issueForward s).store = s.store := by
  unfold issueForward; (repeat' split) <;> simp
@[simp] theorem issueForward_capture (s : State) : (issueForward s).capture = s.capture := by
  unfold issueForward; (repeat' split) <;> simp
@[simp] theorem issueForward_arbiter (s : State) : (issueForward s).arbiter = s.arbiter := by
  unfold issueForward; (repeat' split) <;> simp
@[simp] theorem issueForward_access (s : State) : (issueForward s).access = s.access := by
  unfold issueForward; (repeat' split) <;> simp
@[simp] theorem issueForward_link (s : State) : (issueForward s).link = s.link := by
  unfold issueForward; (repeat' split) <;> simp

@[simp] theorem issueLink_pending (s : State) : (issueLink s).pending = s.pending := by
  unfold issueLink; (repeat' split) <;> simp
@[simp] theorem issueLink_pins (s : State) : (issueLink s).pins = s.pins := by
  unfold issueLink; (repeat' split) <;> simp
@[simp] theorem issueLink_control (s : State) : (issueLink s).control = s.control := by
  unfold issueLink; (repeat' split) <;> simp
@[simp] theorem issueLink_table (s : State) : (issueLink s).table = s.table := by
  unfold issueLink; (repeat' split) <;> simp
@[simp] theorem issueLink_store (s : State) : (issueLink s).store = s.store := by
  unfold issueLink; (repeat' split) <;> simp
@[simp] theorem issueLink_forward (s : State) : (issueLink s).forward = s.forward := by
  unfold issueLink; (repeat' split) <;> simp
@[simp] theorem issueLink_capture (s : State) : (issueLink s).capture = s.capture := by
  unfold issueLink; (repeat' split) <;> simp
@[simp] theorem issueLink_arbiter (s : State) : (issueLink s).arbiter = s.arbiter := by
  unfold issueLink; (repeat' split) <;> simp
@[simp] theorem issueLink_link (s : State) : (issueLink s).link = s.link := by
  unfold issueLink; (repeat' split) <;> simp

@[simp] theorem issueSweep_pending (s : State) : (issueSweep s).pending = s.pending := by
  unfold issueSweep; (repeat' split) <;> simp
@[simp] theorem issueSweep_pins (s : State) : (issueSweep s).pins = s.pins := by
  unfold issueSweep; (repeat' split) <;> simp
@[simp] theorem issueSweep_control (s : State) : (issueSweep s).control = s.control := by
  unfold issueSweep; (repeat' split) <;> simp
@[simp] theorem issueSweep_table (s : State) : (issueSweep s).table = s.table := by
  unfold issueSweep; (repeat' split) <;> simp
@[simp] theorem issueSweep_store (s : State) : (issueSweep s).store = s.store := by
  unfold issueSweep; (repeat' split) <;> simp
@[simp] theorem issueSweep_forward (s : State) : (issueSweep s).forward = s.forward := by
  unfold issueSweep; (repeat' split) <;> simp
@[simp] theorem issueSweep_capture (s : State) : (issueSweep s).capture = s.capture := by
  unfold issueSweep; (repeat' split) <;> simp
@[simp] theorem issueSweep_arbiter (s : State) : (issueSweep s).arbiter = s.arbiter := by
  unfold issueSweep; (repeat' split) <;> simp
@[simp] theorem issueSweep_access (s : State) : (issueSweep s).access = s.access := by
  unfold issueSweep; (repeat' split) <;> simp
@[simp] theorem issueSweep_link (s : State) : (issueSweep s).link = s.link := by
  unfold issueSweep; (repeat' split) <;> simp

@[simp] theorem grant_pending (r : Requester) (s : State) : (grant r s).pending = s.pending := by
  unfold grant; (repeat' split) <;> simp
@[simp] theorem grant_pins (r : Requester) (s : State) : (grant r s).pins = s.pins := by
  unfold grant; (repeat' split) <;> simp
@[simp] theorem grant_control (r : Requester) (s : State) : (grant r s).control = s.control := by
  unfold grant; (repeat' split) <;> simp
@[simp] theorem grant_table (r : Requester) (s : State) : (grant r s).table = s.table := by
  unfold grant; (repeat' split) <;> simp
@[simp] theorem grant_store (r : Requester) (s : State) : (grant r s).store = s.store := by
  unfold grant; (repeat' split) <;> simp
@[simp] theorem grant_capture (r : Requester) (s : State) : (grant r s).capture = s.capture := by
  unfold grant; (repeat' split) <;> simp
@[simp] theorem grant_link (r : Requester) (s : State) : (grant r s).link = s.link := by
  unfold grant; (repeat' split) <;> simp

@[simp] theorem present_pending (r : Requester) (s : State) : (present r s).pending = s.pending := by
  unfold present; (repeat' split) <;> simp
@[simp] theorem present_pins (r : Requester) (s : State) : (present r s).pins = s.pins := by
  unfold present; (repeat' split) <;> simp
@[simp] theorem present_control (r : Requester) (s : State) : (present r s).control = s.control := by
  unfold present; (repeat' split) <;> simp
@[simp] theorem present_table (r : Requester) (s : State) : (present r s).table = s.table := by
  unfold present; (repeat' split) <;> simp
@[simp] theorem present_store (r : Requester) (s : State) : (present r s).store = s.store := by
  unfold present; (repeat' split) <;> simp
@[simp] theorem present_capture (r : Requester) (s : State) : (present r s).capture = s.capture := by
  unfold present; (repeat' split) <;> simp
@[simp] theorem present_link (r : Requester) (s : State) : (present r s).link = s.link := by
  unfold present; (repeat' split) <;> simp

@[simp] theorem decideGrant_pending (s : State) : (decideGrant s).pending = s.pending := by
  unfold decideGrant; (repeat' split) <;> simp
@[simp] theorem decideGrant_pins (s : State) : (decideGrant s).pins = s.pins := by
  unfold decideGrant; (repeat' split) <;> simp
@[simp] theorem decideGrant_control (s : State) : (decideGrant s).control = s.control := by
  unfold decideGrant; (repeat' split) <;> simp
@[simp] theorem decideGrant_table (s : State) : (decideGrant s).table = s.table := by
  unfold decideGrant; (repeat' split) <;> simp
@[simp] theorem decideGrant_store (s : State) : (decideGrant s).store = s.store := by
  unfold decideGrant; (repeat' split) <;> simp
@[simp] theorem decideGrant_capture (s : State) : (decideGrant s).capture = s.capture := by
  unfold decideGrant; (repeat' split) <;> simp
@[simp] theorem decideGrant_link (s : State) : (decideGrant s).link = s.link := by
  unfold decideGrant; (repeat' split) <;> simp

@[simp] theorem freePort_pending (b : Bool) (s : State) : (freePort b s).pending = s.pending := by
  simp [freePort]
@[simp] theorem freePort_pins (b : Bool) (s : State) : (freePort b s).pins = s.pins := by
  simp [freePort]
@[simp] theorem freePort_control (b : Bool) (s : State) : (freePort b s).control = s.control := by
  simp [freePort]
@[simp] theorem freePort_table (b : Bool) (s : State) : (freePort b s).table = s.table := by
  simp [freePort]
@[simp] theorem freePort_store (b : Bool) (s : State) : (freePort b s).store = s.store := by
  simp [freePort]
@[simp] theorem freePort_capture (b : Bool) (s : State) : (freePort b s).capture = s.capture := by
  simp [freePort]
@[simp] theorem freePort_link (b : Bool) (s : State) : (freePort b s).link = s.link := by
  simp [freePort]

/-! ## Capture unit and host responses -/

@[simp] theorem admitRecord_pending (o : CaptureOffer) (s : State) : (admitRecord o s).pending = s.pending := by
  simp [admitRecord]
@[simp] theorem admitRecord_pins (o : CaptureOffer) (s : State) : (admitRecord o s).pins = s.pins := by
  simp [admitRecord]
@[simp] theorem admitRecord_table (o : CaptureOffer) (s : State) : (admitRecord o s).table = s.table := by
  simp [admitRecord]
@[simp] theorem admitRecord_store (o : CaptureOffer) (s : State) : (admitRecord o s).store = s.store := by
  simp [admitRecord]
@[simp] theorem admitRecord_forward (o : CaptureOffer) (s : State) : (admitRecord o s).forward = s.forward := by
  simp [admitRecord]
@[simp] theorem admitRecord_arbiter (o : CaptureOffer) (s : State) : (admitRecord o s).arbiter = s.arbiter := by
  simp [admitRecord]
@[simp] theorem admitRecord_port (o : CaptureOffer) (s : State) : (admitRecord o s).port = s.port := by
  simp [admitRecord]
@[simp] theorem admitRecord_access (o : CaptureOffer) (s : State) : (admitRecord o s).access = s.access := by
  simp [admitRecord]
@[simp] theorem admitRecord_sweep (o : CaptureOffer) (s : State) : (admitRecord o s).sweep = s.sweep := by
  simp [admitRecord]
@[simp] theorem admitRecord_link (o : CaptureOffer) (s : State) : (admitRecord o s).link = s.link := by
  simp [admitRecord]

@[simp] theorem dropRecord_pending (s : State) : (dropRecord s).pending = s.pending := by
  simp [dropRecord]
@[simp] theorem dropRecord_pins (s : State) : (dropRecord s).pins = s.pins := by
  simp [dropRecord]
@[simp] theorem dropRecord_table (s : State) : (dropRecord s).table = s.table := by
  simp [dropRecord]
@[simp] theorem dropRecord_store (s : State) : (dropRecord s).store = s.store := by
  simp [dropRecord]
@[simp] theorem dropRecord_forward (s : State) : (dropRecord s).forward = s.forward := by
  simp [dropRecord]
@[simp] theorem dropRecord_arbiter (s : State) : (dropRecord s).arbiter = s.arbiter := by
  simp [dropRecord]
@[simp] theorem dropRecord_port (s : State) : (dropRecord s).port = s.port := by
  simp [dropRecord]
@[simp] theorem dropRecord_access (s : State) : (dropRecord s).access = s.access := by
  simp [dropRecord]
@[simp] theorem dropRecord_sweep (s : State) : (dropRecord s).sweep = s.sweep := by
  simp [dropRecord]
@[simp] theorem dropRecord_link (s : State) : (dropRecord s).link = s.link := by
  simp [dropRecord]

@[simp] theorem removeOldest_pending (n : Nat) (s : State) : (removeOldest n s).pending = s.pending := by
  simp [removeOldest]
@[simp] theorem removeOldest_pins (n : Nat) (s : State) : (removeOldest n s).pins = s.pins := by
  simp [removeOldest]
@[simp] theorem removeOldest_table (n : Nat) (s : State) : (removeOldest n s).table = s.table := by
  simp [removeOldest]
@[simp] theorem removeOldest_store (n : Nat) (s : State) : (removeOldest n s).store = s.store := by
  simp [removeOldest]
@[simp] theorem removeOldest_forward (n : Nat) (s : State) : (removeOldest n s).forward = s.forward := by
  simp [removeOldest]
@[simp] theorem removeOldest_arbiter (n : Nat) (s : State) : (removeOldest n s).arbiter = s.arbiter := by
  simp [removeOldest]
@[simp] theorem removeOldest_port (n : Nat) (s : State) : (removeOldest n s).port = s.port := by
  simp [removeOldest]
@[simp] theorem removeOldest_access (n : Nat) (s : State) : (removeOldest n s).access = s.access := by
  simp [removeOldest]
@[simp] theorem removeOldest_sweep (n : Nat) (s : State) : (removeOldest n s).sweep = s.sweep := by
  simp [removeOldest]
@[simp] theorem removeOldest_link (n : Nat) (s : State) : (removeOldest n s).link = s.link := by
  simp [removeOldest]

@[simp] theorem clearHeld_pending (s : State) : (clearHeld s).pending = s.pending := by
  simp [clearHeld]
@[simp] theorem clearHeld_pins (s : State) : (clearHeld s).pins = s.pins := by
  simp [clearHeld]
@[simp] theorem clearHeld_control (s : State) : (clearHeld s).control = s.control := by
  simp [clearHeld]
@[simp] theorem clearHeld_table (s : State) : (clearHeld s).table = s.table := by
  simp [clearHeld]
@[simp] theorem clearHeld_store (s : State) : (clearHeld s).store = s.store := by
  simp [clearHeld]
@[simp] theorem clearHeld_forward (s : State) : (clearHeld s).forward = s.forward := by
  simp [clearHeld]
@[simp] theorem clearHeld_arbiter (s : State) : (clearHeld s).arbiter = s.arbiter := by
  simp [clearHeld]
@[simp] theorem clearHeld_port (s : State) : (clearHeld s).port = s.port := by
  simp [clearHeld]
@[simp] theorem clearHeld_access (s : State) : (clearHeld s).access = s.access := by
  simp [clearHeld]
@[simp] theorem clearHeld_sweep (s : State) : (clearHeld s).sweep = s.sweep := by
  simp [clearHeld]
@[simp] theorem clearHeld_link (s : State) : (clearHeld s).link = s.link := by
  simp [clearHeld]

@[simp] theorem giveResponse_pending (r : BusRequest) (resp : BusResponse) (s : State) : (giveResponse r resp s).pending = s.pending := by
  simp [giveResponse]
@[simp] theorem giveResponse_pins (r : BusRequest) (resp : BusResponse) (s : State) : (giveResponse r resp s).pins = s.pins := by
  simp [giveResponse]
@[simp] theorem giveResponse_table (r : BusRequest) (resp : BusResponse) (s : State) : (giveResponse r resp s).table = s.table := by
  simp [giveResponse]
@[simp] theorem giveResponse_store (r : BusRequest) (resp : BusResponse) (s : State) : (giveResponse r resp s).store = s.store := by
  simp [giveResponse]
@[simp] theorem giveResponse_capture (r : BusRequest) (resp : BusResponse) (s : State) : (giveResponse r resp s).capture = s.capture := by
  simp [giveResponse]
@[simp] theorem giveResponse_arbiter (r : BusRequest) (resp : BusResponse) (s : State) : (giveResponse r resp s).arbiter = s.arbiter := by
  simp [giveResponse]
@[simp] theorem giveResponse_port (r : BusRequest) (resp : BusResponse) (s : State) : (giveResponse r resp s).port = s.port := by
  simp [giveResponse]
@[simp] theorem giveResponse_access (r : BusRequest) (resp : BusResponse) (s : State) : (giveResponse r resp s).access = s.access := by
  simp [giveResponse]
@[simp] theorem giveResponse_sweep (r : BusRequest) (resp : BusResponse) (s : State) : (giveResponse r resp s).sweep = s.sweep := by
  simp [giveResponse]
@[simp] theorem giveResponse_link (r : BusRequest) (resp : BusResponse) (s : State) : (giveResponse r resp s).link = s.link := by
  simp [giveResponse]

@[simp] theorem endHoldBySpace_pending (s : State) : (endHoldBySpace s).pending = s.pending := by
  unfold endHoldBySpace; (repeat' split) <;> simp
@[simp] theorem endHoldBySpace_pins (s : State) : (endHoldBySpace s).pins = s.pins := by
  unfold endHoldBySpace; (repeat' split) <;> simp
@[simp] theorem endHoldBySpace_table (s : State) : (endHoldBySpace s).table = s.table := by
  unfold endHoldBySpace; (repeat' split) <;> simp
@[simp] theorem endHoldBySpace_store (s : State) : (endHoldBySpace s).store = s.store := by
  unfold endHoldBySpace; (repeat' split) <;> simp
@[simp] theorem endHoldBySpace_arbiter (s : State) : (endHoldBySpace s).arbiter = s.arbiter := by
  unfold endHoldBySpace; (repeat' split) <;> simp
@[simp] theorem endHoldBySpace_port (s : State) : (endHoldBySpace s).port = s.port := by
  unfold endHoldBySpace; (repeat' split) <;> simp
@[simp] theorem endHoldBySpace_access (s : State) : (endHoldBySpace s).access = s.access := by
  unfold endHoldBySpace; (repeat' split) <;> simp
@[simp] theorem endHoldBySpace_sweep (s : State) : (endHoldBySpace s).sweep = s.sweep := by
  unfold endHoldBySpace; (repeat' split) <;> simp
@[simp] theorem endHoldBySpace_link (s : State) : (endHoldBySpace s).link = s.link := by
  unfold endHoldBySpace; (repeat' split) <;> simp

@[simp] theorem endHoldByDrop_pending (s : State) : (endHoldByDrop s).pending = s.pending := by
  unfold endHoldByDrop; (repeat' split) <;> simp
@[simp] theorem endHoldByDrop_pins (s : State) : (endHoldByDrop s).pins = s.pins := by
  unfold endHoldByDrop; (repeat' split) <;> simp
@[simp] theorem endHoldByDrop_table (s : State) : (endHoldByDrop s).table = s.table := by
  unfold endHoldByDrop; (repeat' split) <;> simp
@[simp] theorem endHoldByDrop_store (s : State) : (endHoldByDrop s).store = s.store := by
  unfold endHoldByDrop; (repeat' split) <;> simp
@[simp] theorem endHoldByDrop_arbiter (s : State) : (endHoldByDrop s).arbiter = s.arbiter := by
  unfold endHoldByDrop; (repeat' split) <;> simp
@[simp] theorem endHoldByDrop_port (s : State) : (endHoldByDrop s).port = s.port := by
  unfold endHoldByDrop; (repeat' split) <;> simp
@[simp] theorem endHoldByDrop_access (s : State) : (endHoldByDrop s).access = s.access := by
  unfold endHoldByDrop; (repeat' split) <;> simp
@[simp] theorem endHoldByDrop_sweep (s : State) : (endHoldByDrop s).sweep = s.sweep := by
  unfold endHoldByDrop; (repeat' split) <;> simp
@[simp] theorem endHoldByDrop_link (s : State) : (endHoldByDrop s).link = s.link := by
  unfold endHoldByDrop; (repeat' split) <;> simp

/-! ## Settle -/

@[simp] theorem pulseMark_pending (s : State) : (pulseMark s).pending = s.pending := by
  simp [pulseMark]
@[simp] theorem pulseMark_control (s : State) : (pulseMark s).control = s.control := by
  simp [pulseMark]
@[simp] theorem pulseMark_table (s : State) : (pulseMark s).table = s.table := by
  simp [pulseMark]
@[simp] theorem pulseMark_store (s : State) : (pulseMark s).store = s.store := by
  simp [pulseMark]
@[simp] theorem pulseMark_forward (s : State) : (pulseMark s).forward = s.forward := by
  simp [pulseMark]
@[simp] theorem pulseMark_capture (s : State) : (pulseMark s).capture = s.capture := by
  simp [pulseMark]
@[simp] theorem pulseMark_arbiter (s : State) : (pulseMark s).arbiter = s.arbiter := by
  simp [pulseMark]
@[simp] theorem pulseMark_port (s : State) : (pulseMark s).port = s.port := by
  simp [pulseMark]
@[simp] theorem pulseMark_access (s : State) : (pulseMark s).access = s.access := by
  simp [pulseMark]
@[simp] theorem pulseMark_sweep (s : State) : (pulseMark s).sweep = s.sweep := by
  simp [pulseMark]
@[simp] theorem pulseMark_link (s : State) : (pulseMark s).link = s.link := by
  simp [pulseMark]

@[simp] theorem handOff_pending (i j : Nat) (s : State) : (handOff i j s).pending = s.pending := by
  unfold handOff; (repeat' split) <;> simp
@[simp] theorem handOff_pins (i j : Nat) (s : State) : (handOff i j s).pins = s.pins := by
  unfold handOff; (repeat' split) <;> simp
@[simp] theorem handOff_store (i j : Nat) (s : State) : (handOff i j s).store = s.store := by
  unfold handOff; (repeat' split) <;> simp
@[simp] theorem handOff_forward (i j : Nat) (s : State) : (handOff i j s).forward = s.forward := by
  unfold handOff; (repeat' split) <;> simp
@[simp] theorem handOff_capture (i j : Nat) (s : State) : (handOff i j s).capture = s.capture := by
  unfold handOff; (repeat' split) <;> simp
@[simp] theorem handOff_arbiter (i j : Nat) (s : State) : (handOff i j s).arbiter = s.arbiter := by
  unfold handOff; (repeat' split) <;> simp
@[simp] theorem handOff_port (i j : Nat) (s : State) : (handOff i j s).port = s.port := by
  unfold handOff; (repeat' split) <;> simp
@[simp] theorem handOff_access (i j : Nat) (s : State) : (handOff i j s).access = s.access := by
  unfold handOff; (repeat' split) <;> simp
@[simp] theorem handOff_link (i j : Nat) (s : State) : (handOff i j s).link = s.link := by
  unfold handOff; (repeat' split) <;> simp

@[simp] theorem spend_pending (i : Nat) (s : State) : (spend i s).pending = s.pending := by
  simp [spend]
@[simp] theorem spend_pins (i : Nat) (s : State) : (spend i s).pins = s.pins := by
  simp [spend]
@[simp] theorem spend_control (i : Nat) (s : State) : (spend i s).control = s.control := by
  simp [spend]
@[simp] theorem spend_store (i : Nat) (s : State) : (spend i s).store = s.store := by
  simp [spend]
@[simp] theorem spend_forward (i : Nat) (s : State) : (spend i s).forward = s.forward := by
  simp [spend]
@[simp] theorem spend_capture (i : Nat) (s : State) : (spend i s).capture = s.capture := by
  simp [spend]
@[simp] theorem spend_arbiter (i : Nat) (s : State) : (spend i s).arbiter = s.arbiter := by
  simp [spend]
@[simp] theorem spend_port (i : Nat) (s : State) : (spend i s).port = s.port := by
  simp [spend]
@[simp] theorem spend_access (i : Nat) (s : State) : (spend i s).access = s.access := by
  simp [spend]
@[simp] theorem spend_sweep (i : Nat) (s : State) : (spend i s).sweep = s.sweep := by
  simp [spend]
@[simp] theorem spend_link (i : Nat) (s : State) : (spend i s).link = s.link := by
  simp [spend]

@[simp] theorem noteLost_pending (x : SlotStatus) (s : State) : (noteLost x s).pending = s.pending := by
  unfold noteLost; (repeat' split) <;> simp
@[simp] theorem noteLost_pins (x : SlotStatus) (s : State) : (noteLost x s).pins = s.pins := by
  unfold noteLost; (repeat' split) <;> simp
@[simp] theorem noteLost_table (x : SlotStatus) (s : State) : (noteLost x s).table = s.table := by
  unfold noteLost; (repeat' split) <;> simp
@[simp] theorem noteLost_store (x : SlotStatus) (s : State) : (noteLost x s).store = s.store := by
  unfold noteLost; (repeat' split) <;> simp
@[simp] theorem noteLost_forward (x : SlotStatus) (s : State) : (noteLost x s).forward = s.forward := by
  unfold noteLost; (repeat' split) <;> simp
@[simp] theorem noteLost_capture (x : SlotStatus) (s : State) : (noteLost x s).capture = s.capture := by
  unfold noteLost; (repeat' split) <;> simp
@[simp] theorem noteLost_arbiter (x : SlotStatus) (s : State) : (noteLost x s).arbiter = s.arbiter := by
  unfold noteLost; (repeat' split) <;> simp
@[simp] theorem noteLost_port (x : SlotStatus) (s : State) : (noteLost x s).port = s.port := by
  unfold noteLost; (repeat' split) <;> simp
@[simp] theorem noteLost_access (x : SlotStatus) (s : State) : (noteLost x s).access = s.access := by
  unfold noteLost; (repeat' split) <;> simp
@[simp] theorem noteLost_sweep (x : SlotStatus) (s : State) : (noteLost x s).sweep = s.sweep := by
  unfold noteLost; (repeat' split) <;> simp
@[simp] theorem noteLost_link (x : SlotStatus) (s : State) : (noteLost x s).link = s.link := by
  unfold noteLost; (repeat' split) <;> simp

@[simp] theorem noteAlert_pending (c : SlotConfig) (s : State) : (noteAlert c s).pending = s.pending := by
  unfold noteAlert; (repeat' split) <;> simp
@[simp] theorem noteAlert_pins (c : SlotConfig) (s : State) : (noteAlert c s).pins = s.pins := by
  unfold noteAlert; (repeat' split) <;> simp
@[simp] theorem noteAlert_table (c : SlotConfig) (s : State) : (noteAlert c s).table = s.table := by
  unfold noteAlert; (repeat' split) <;> simp
@[simp] theorem noteAlert_store (c : SlotConfig) (s : State) : (noteAlert c s).store = s.store := by
  unfold noteAlert; (repeat' split) <;> simp
@[simp] theorem noteAlert_forward (c : SlotConfig) (s : State) : (noteAlert c s).forward = s.forward := by
  unfold noteAlert; (repeat' split) <;> simp
@[simp] theorem noteAlert_capture (c : SlotConfig) (s : State) : (noteAlert c s).capture = s.capture := by
  unfold noteAlert; (repeat' split) <;> simp
@[simp] theorem noteAlert_arbiter (c : SlotConfig) (s : State) : (noteAlert c s).arbiter = s.arbiter := by
  unfold noteAlert; (repeat' split) <;> simp
@[simp] theorem noteAlert_port (c : SlotConfig) (s : State) : (noteAlert c s).port = s.port := by
  unfold noteAlert; (repeat' split) <;> simp
@[simp] theorem noteAlert_access (c : SlotConfig) (s : State) : (noteAlert c s).access = s.access := by
  unfold noteAlert; (repeat' split) <;> simp
@[simp] theorem noteAlert_sweep (c : SlotConfig) (s : State) : (noteAlert c s).sweep = s.sweep := by
  unfold noteAlert; (repeat' split) <;> simp
@[simp] theorem noteAlert_link (c : SlotConfig) (s : State) : (noteAlert c s).link = s.link := by
  unfold noteAlert; (repeat' split) <;> simp

@[simp] theorem noteMark_pending (c : SlotConfig) (s : State) : (noteMark c s).pending = s.pending := by
  unfold noteMark; (repeat' split) <;> simp
@[simp] theorem noteMark_control (c : SlotConfig) (s : State) : (noteMark c s).control = s.control := by
  unfold noteMark; (repeat' split) <;> simp
@[simp] theorem noteMark_table (c : SlotConfig) (s : State) : (noteMark c s).table = s.table := by
  unfold noteMark; (repeat' split) <;> simp
@[simp] theorem noteMark_store (c : SlotConfig) (s : State) : (noteMark c s).store = s.store := by
  unfold noteMark; (repeat' split) <;> simp
@[simp] theorem noteMark_forward (c : SlotConfig) (s : State) : (noteMark c s).forward = s.forward := by
  unfold noteMark; (repeat' split) <;> simp
@[simp] theorem noteMark_capture (c : SlotConfig) (s : State) : (noteMark c s).capture = s.capture := by
  unfold noteMark; (repeat' split) <;> simp
@[simp] theorem noteMark_arbiter (c : SlotConfig) (s : State) : (noteMark c s).arbiter = s.arbiter := by
  unfold noteMark; (repeat' split) <;> simp
@[simp] theorem noteMark_port (c : SlotConfig) (s : State) : (noteMark c s).port = s.port := by
  unfold noteMark; (repeat' split) <;> simp
@[simp] theorem noteMark_access (c : SlotConfig) (s : State) : (noteMark c s).access = s.access := by
  unfold noteMark; (repeat' split) <;> simp
@[simp] theorem noteMark_sweep (c : SlotConfig) (s : State) : (noteMark c s).sweep = s.sweep := by
  unfold noteMark; (repeat' split) <;> simp
@[simp] theorem noteMark_link (c : SlotConfig) (s : State) : (noteMark c s).link = s.link := by
  unfold noteMark; (repeat' split) <;> simp

@[simp] theorem limitAction_pending (i : Nat) (s : State) : (limitAction i s).pending = s.pending := by
  unfold limitAction; (repeat' split) <;> simp
@[simp] theorem limitAction_pins (i : Nat) (s : State) : (limitAction i s).pins = s.pins := by
  unfold limitAction; (repeat' split) <;> simp
@[simp] theorem limitAction_store (i : Nat) (s : State) : (limitAction i s).store = s.store := by
  unfold limitAction; (repeat' split) <;> simp
@[simp] theorem limitAction_forward (i : Nat) (s : State) : (limitAction i s).forward = s.forward := by
  unfold limitAction; (repeat' split) <;> simp
@[simp] theorem limitAction_capture (i : Nat) (s : State) : (limitAction i s).capture = s.capture := by
  unfold limitAction; (repeat' split) <;> simp
@[simp] theorem limitAction_arbiter (i : Nat) (s : State) : (limitAction i s).arbiter = s.arbiter := by
  unfold limitAction; (repeat' split) <;> simp
@[simp] theorem limitAction_port (i : Nat) (s : State) : (limitAction i s).port = s.port := by
  unfold limitAction; (repeat' split) <;> simp
@[simp] theorem limitAction_access (i : Nat) (s : State) : (limitAction i s).access = s.access := by
  unfold limitAction; (repeat' split) <;> simp
@[simp] theorem limitAction_link (i : Nat) (s : State) : (limitAction i s).link = s.link := by
  unfold limitAction; (repeat' split) <;> simp

@[simp] theorem noteLimit_pending (i : Nat) (x : Slot) (s : State) : (noteLimit i x s).pending = s.pending := by
  unfold noteLimit; (repeat' split) <;> simp
@[simp] theorem noteLimit_pins (i : Nat) (x : Slot) (s : State) : (noteLimit i x s).pins = s.pins := by
  unfold noteLimit; (repeat' split) <;> simp
@[simp] theorem noteLimit_store (i : Nat) (x : Slot) (s : State) : (noteLimit i x s).store = s.store := by
  unfold noteLimit; (repeat' split) <;> simp
@[simp] theorem noteLimit_forward (i : Nat) (x : Slot) (s : State) : (noteLimit i x s).forward = s.forward := by
  unfold noteLimit; (repeat' split) <;> simp
@[simp] theorem noteLimit_capture (i : Nat) (x : Slot) (s : State) : (noteLimit i x s).capture = s.capture := by
  unfold noteLimit; (repeat' split) <;> simp
@[simp] theorem noteLimit_arbiter (i : Nat) (x : Slot) (s : State) : (noteLimit i x s).arbiter = s.arbiter := by
  unfold noteLimit; (repeat' split) <;> simp
@[simp] theorem noteLimit_port (i : Nat) (x : Slot) (s : State) : (noteLimit i x s).port = s.port := by
  unfold noteLimit; (repeat' split) <;> simp
@[simp] theorem noteLimit_access (i : Nat) (x : Slot) (s : State) : (noteLimit i x s).access = s.access := by
  unfold noteLimit; (repeat' split) <;> simp
@[simp] theorem noteLimit_link (i : Nat) (x : Slot) (s : State) : (noteLimit i x s).link = s.link := by
  unfold noteLimit; (repeat' split) <;> simp

@[simp] theorem accountHitOf_pending (k : Kind) (ts : Word) (i a : Nat) (x : Slot) (s : State) : (accountHitOf k ts i a x s).pending = s.pending := by
  simp [accountHitOf]
@[simp] theorem accountHitOf_store (k : Kind) (ts : Word) (i a : Nat) (x : Slot) (s : State) : (accountHitOf k ts i a x s).store = s.store := by
  simp [accountHitOf]
@[simp] theorem accountHitOf_forward (k : Kind) (ts : Word) (i a : Nat) (x : Slot) (s : State) : (accountHitOf k ts i a x s).forward = s.forward := by
  simp [accountHitOf]
@[simp] theorem accountHitOf_capture (k : Kind) (ts : Word) (i a : Nat) (x : Slot) (s : State) : (accountHitOf k ts i a x s).capture = s.capture := by
  simp [accountHitOf]
@[simp] theorem accountHitOf_arbiter (k : Kind) (ts : Word) (i a : Nat) (x : Slot) (s : State) : (accountHitOf k ts i a x s).arbiter = s.arbiter := by
  simp [accountHitOf]
@[simp] theorem accountHitOf_port (k : Kind) (ts : Word) (i a : Nat) (x : Slot) (s : State) : (accountHitOf k ts i a x s).port = s.port := by
  simp [accountHitOf]
@[simp] theorem accountHitOf_access (k : Kind) (ts : Word) (i a : Nat) (x : Slot) (s : State) : (accountHitOf k ts i a x s).access = s.access := by
  simp [accountHitOf]
@[simp] theorem accountHitOf_link (k : Kind) (ts : Word) (i a : Nat) (x : Slot) (s : State) : (accountHitOf k ts i a x s).link = s.link := by
  simp [accountHitOf]

@[simp] theorem accountHit_pending (k : Kind) (ts : Word) (i a : Nat) (s : State) : (accountHit k ts i a s).pending = s.pending := by
  simp [accountHit]
@[simp] theorem accountHit_store (k : Kind) (ts : Word) (i a : Nat) (s : State) : (accountHit k ts i a s).store = s.store := by
  simp [accountHit]
@[simp] theorem accountHit_forward (k : Kind) (ts : Word) (i a : Nat) (s : State) : (accountHit k ts i a s).forward = s.forward := by
  simp [accountHit]
@[simp] theorem accountHit_capture (k : Kind) (ts : Word) (i a : Nat) (s : State) : (accountHit k ts i a s).capture = s.capture := by
  simp [accountHit]
@[simp] theorem accountHit_arbiter (k : Kind) (ts : Word) (i a : Nat) (s : State) : (accountHit k ts i a s).arbiter = s.arbiter := by
  simp [accountHit]
@[simp] theorem accountHit_port (k : Kind) (ts : Word) (i a : Nat) (s : State) : (accountHit k ts i a s).port = s.port := by
  simp [accountHit]
@[simp] theorem accountHit_access (k : Kind) (ts : Word) (i a : Nat) (s : State) : (accountHit k ts i a s).access = s.access := by
  simp [accountHit]
@[simp] theorem accountHit_link (k : Kind) (ts : Word) (i a : Nat) (s : State) : (accountHit k ts i a s).link = s.link := by
  simp [accountHit]

@[simp] theorem flagFault_pending (i : Nat) (s : State) : (flagFault i s).pending = s.pending := by
  simp [flagFault]
@[simp] theorem flagFault_pins (i : Nat) (s : State) : (flagFault i s).pins = s.pins := by
  simp [flagFault]
@[simp] theorem flagFault_store (i : Nat) (s : State) : (flagFault i s).store = s.store := by
  simp [flagFault]
@[simp] theorem flagFault_forward (i : Nat) (s : State) : (flagFault i s).forward = s.forward := by
  simp [flagFault]
@[simp] theorem flagFault_capture (i : Nat) (s : State) : (flagFault i s).capture = s.capture := by
  simp [flagFault]
@[simp] theorem flagFault_arbiter (i : Nat) (s : State) : (flagFault i s).arbiter = s.arbiter := by
  simp [flagFault]
@[simp] theorem flagFault_port (i : Nat) (s : State) : (flagFault i s).port = s.port := by
  simp [flagFault]
@[simp] theorem flagFault_access (i : Nat) (s : State) : (flagFault i s).access = s.access := by
  simp [flagFault]
@[simp] theorem flagFault_sweep (i : Nat) (s : State) : (flagFault i s).sweep = s.sweep := by
  simp [flagFault]
@[simp] theorem flagFault_link (i : Nat) (s : State) : (flagFault i s).link = s.link := by
  simp [flagFault]

@[simp] theorem accountFault_pending (d : Decided) (i : Nat) (s : State) : (accountFault d i s).pending = s.pending := by
  unfold accountFault; (repeat' split) <;> simp
@[simp] theorem accountFault_pins (d : Decided) (i : Nat) (s : State) : (accountFault d i s).pins = s.pins := by
  unfold accountFault; (repeat' split) <;> simp
@[simp] theorem accountFault_store (d : Decided) (i : Nat) (s : State) : (accountFault d i s).store = s.store := by
  unfold accountFault; (repeat' split) <;> simp
@[simp] theorem accountFault_forward (d : Decided) (i : Nat) (s : State) : (accountFault d i s).forward = s.forward := by
  unfold accountFault; (repeat' split) <;> simp
@[simp] theorem accountFault_capture (d : Decided) (i : Nat) (s : State) : (accountFault d i s).capture = s.capture := by
  unfold accountFault; (repeat' split) <;> simp
@[simp] theorem accountFault_arbiter (d : Decided) (i : Nat) (s : State) : (accountFault d i s).arbiter = s.arbiter := by
  unfold accountFault; (repeat' split) <;> simp
@[simp] theorem accountFault_port (d : Decided) (i : Nat) (s : State) : (accountFault d i s).port = s.port := by
  unfold accountFault; (repeat' split) <;> simp
@[simp] theorem accountFault_access (d : Decided) (i : Nat) (s : State) : (accountFault d i s).access = s.access := by
  unfold accountFault; (repeat' split) <;> simp
@[simp] theorem accountFault_sweep (d : Decided) (i : Nat) (s : State) : (accountFault d i s).sweep = s.sweep := by
  unfold accountFault; (repeat' split) <;> simp
@[simp] theorem accountFault_link (d : Decided) (i : Nat) (s : State) : (accountFault d i s).link = s.link := by
  unfold accountFault; (repeat' split) <;> simp

@[simp] theorem accountSlots_pending (k : Kind) (ts : Word) (d : Decided) (hits : List (Nat × Nat)) (s : State) : (accountSlots k ts d hits s).pending = s.pending := by
  induction hits generalizing s with
  | nil => rfl
  | cons p rest ih => simp [accountSlots, ih]
@[simp] theorem accountSlots_store (k : Kind) (ts : Word) (d : Decided) (hits : List (Nat × Nat)) (s : State) : (accountSlots k ts d hits s).store = s.store := by
  induction hits generalizing s with
  | nil => rfl
  | cons p rest ih => simp [accountSlots, ih]
@[simp] theorem accountSlots_forward (k : Kind) (ts : Word) (d : Decided) (hits : List (Nat × Nat)) (s : State) : (accountSlots k ts d hits s).forward = s.forward := by
  induction hits generalizing s with
  | nil => rfl
  | cons p rest ih => simp [accountSlots, ih]
@[simp] theorem accountSlots_capture (k : Kind) (ts : Word) (d : Decided) (hits : List (Nat × Nat)) (s : State) : (accountSlots k ts d hits s).capture = s.capture := by
  induction hits generalizing s with
  | nil => rfl
  | cons p rest ih => simp [accountSlots, ih]
@[simp] theorem accountSlots_arbiter (k : Kind) (ts : Word) (d : Decided) (hits : List (Nat × Nat)) (s : State) : (accountSlots k ts d hits s).arbiter = s.arbiter := by
  induction hits generalizing s with
  | nil => rfl
  | cons p rest ih => simp [accountSlots, ih]
@[simp] theorem accountSlots_port (k : Kind) (ts : Word) (d : Decided) (hits : List (Nat × Nat)) (s : State) : (accountSlots k ts d hits s).port = s.port := by
  induction hits generalizing s with
  | nil => rfl
  | cons p rest ih => simp [accountSlots, ih]
@[simp] theorem accountSlots_access (k : Kind) (ts : Word) (d : Decided) (hits : List (Nat × Nat)) (s : State) : (accountSlots k ts d hits s).access = s.access := by
  induction hits generalizing s with
  | nil => rfl
  | cons p rest ih => simp [accountSlots, ih]
@[simp] theorem accountSlots_link (k : Kind) (ts : Word) (d : Decided) (hits : List (Nat × Nat)) (s : State) : (accountSlots k ts d hits s).link = s.link := by
  induction hits generalizing s with
  | nil => rfl
  | cons p rest ih => simp [accountSlots, ih]

@[simp] theorem shadowWrites_pending (snap : List SnapSlot) (ws : List (WordDecision × WriteWord)) (s : State) : (shadowWrites snap ws s).pending = s.pending := by
  induction ws generalizing s with
  | nil => rfl
  | cons p rest ih => simp only [shadowWrites]; (repeat' split) <;> simp [ih]
@[simp] theorem shadowWrites_pins (snap : List SnapSlot) (ws : List (WordDecision × WriteWord)) (s : State) : (shadowWrites snap ws s).pins = s.pins := by
  induction ws generalizing s with
  | nil => rfl
  | cons p rest ih => simp only [shadowWrites]; (repeat' split) <;> simp [ih]
@[simp] theorem shadowWrites_control (snap : List SnapSlot) (ws : List (WordDecision × WriteWord)) (s : State) : (shadowWrites snap ws s).control = s.control := by
  induction ws generalizing s with
  | nil => rfl
  | cons p rest ih => simp only [shadowWrites]; (repeat' split) <;> simp [ih]
@[simp] theorem shadowWrites_table (snap : List SnapSlot) (ws : List (WordDecision × WriteWord)) (s : State) : (shadowWrites snap ws s).table = s.table := by
  induction ws generalizing s with
  | nil => rfl
  | cons p rest ih => simp only [shadowWrites]; (repeat' split) <;> simp [ih]
@[simp] theorem shadowWrites_forward (snap : List SnapSlot) (ws : List (WordDecision × WriteWord)) (s : State) : (shadowWrites snap ws s).forward = s.forward := by
  induction ws generalizing s with
  | nil => rfl
  | cons p rest ih => simp only [shadowWrites]; (repeat' split) <;> simp [ih]
@[simp] theorem shadowWrites_capture (snap : List SnapSlot) (ws : List (WordDecision × WriteWord)) (s : State) : (shadowWrites snap ws s).capture = s.capture := by
  induction ws generalizing s with
  | nil => rfl
  | cons p rest ih => simp only [shadowWrites]; (repeat' split) <;> simp [ih]
@[simp] theorem shadowWrites_arbiter (snap : List SnapSlot) (ws : List (WordDecision × WriteWord)) (s : State) : (shadowWrites snap ws s).arbiter = s.arbiter := by
  induction ws generalizing s with
  | nil => rfl
  | cons p rest ih => simp only [shadowWrites]; (repeat' split) <;> simp [ih]
@[simp] theorem shadowWrites_port (snap : List SnapSlot) (ws : List (WordDecision × WriteWord)) (s : State) : (shadowWrites snap ws s).port = s.port := by
  induction ws generalizing s with
  | nil => rfl
  | cons p rest ih => simp only [shadowWrites]; (repeat' split) <;> simp [ih]
@[simp] theorem shadowWrites_access (snap : List SnapSlot) (ws : List (WordDecision × WriteWord)) (s : State) : (shadowWrites snap ws s).access = s.access := by
  induction ws generalizing s with
  | nil => rfl
  | cons p rest ih => simp only [shadowWrites]; (repeat' split) <;> simp [ih]
@[simp] theorem shadowWrites_link (snap : List SnapSlot) (ws : List (WordDecision × WriteWord)) (s : State) : (shadowWrites snap ws s).link = s.link := by
  induction ws generalizing s with
  | nil => rfl
  | cons p rest ih => simp only [shadowWrites]; (repeat' split) <;> simp [ih]

@[simp] theorem settleStore_pending (r : BusRequest) (o : RequestOutcome) (d : Decided) (s : State) : (settleStore r o d s).pending = s.pending := by
  unfold settleStore; (repeat' split) <;> simp
@[simp] theorem settleStore_pins (r : BusRequest) (o : RequestOutcome) (d : Decided) (s : State) : (settleStore r o d s).pins = s.pins := by
  unfold settleStore; (repeat' split) <;> simp
@[simp] theorem settleStore_control (r : BusRequest) (o : RequestOutcome) (d : Decided) (s : State) : (settleStore r o d s).control = s.control := by
  unfold settleStore; (repeat' split) <;> simp
@[simp] theorem settleStore_table (r : BusRequest) (o : RequestOutcome) (d : Decided) (s : State) : (settleStore r o d s).table = s.table := by
  unfold settleStore; (repeat' split) <;> simp
@[simp] theorem settleStore_forward (r : BusRequest) (o : RequestOutcome) (d : Decided) (s : State) : (settleStore r o d s).forward = s.forward := by
  unfold settleStore; (repeat' split) <;> simp
@[simp] theorem settleStore_capture (r : BusRequest) (o : RequestOutcome) (d : Decided) (s : State) : (settleStore r o d s).capture = s.capture := by
  unfold settleStore; (repeat' split) <;> simp
@[simp] theorem settleStore_arbiter (r : BusRequest) (o : RequestOutcome) (d : Decided) (s : State) : (settleStore r o d s).arbiter = s.arbiter := by
  unfold settleStore; (repeat' split) <;> simp
@[simp] theorem settleStore_port (r : BusRequest) (o : RequestOutcome) (d : Decided) (s : State) : (settleStore r o d s).port = s.port := by
  unfold settleStore; (repeat' split) <;> simp
@[simp] theorem settleStore_access (r : BusRequest) (o : RequestOutcome) (d : Decided) (s : State) : (settleStore r o d s).access = s.access := by
  unfold settleStore; (repeat' split) <;> simp
@[simp] theorem settleStore_link (r : BusRequest) (o : RequestOutcome) (d : Decided) (s : State) : (settleStore r o d s).link = s.link := by
  unfold settleStore; (repeat' split) <;> simp

@[simp] theorem beginHold_pending (r : BusRequest) (resp : BusResponse) (o : CaptureOffer) (s : State) : (beginHold r resp o s).pending = s.pending := by
  simp [beginHold]
@[simp] theorem beginHold_pins (r : BusRequest) (resp : BusResponse) (o : CaptureOffer) (s : State) : (beginHold r resp o s).pins = s.pins := by
  simp [beginHold]
@[simp] theorem beginHold_control (r : BusRequest) (resp : BusResponse) (o : CaptureOffer) (s : State) : (beginHold r resp o s).control = s.control := by
  simp [beginHold]
@[simp] theorem beginHold_table (r : BusRequest) (resp : BusResponse) (o : CaptureOffer) (s : State) : (beginHold r resp o s).table = s.table := by
  simp [beginHold]
@[simp] theorem beginHold_store (r : BusRequest) (resp : BusResponse) (o : CaptureOffer) (s : State) : (beginHold r resp o s).store = s.store := by
  simp [beginHold]
@[simp] theorem beginHold_arbiter (r : BusRequest) (resp : BusResponse) (o : CaptureOffer) (s : State) : (beginHold r resp o s).arbiter = s.arbiter := by
  simp [beginHold]
@[simp] theorem beginHold_port (r : BusRequest) (resp : BusResponse) (o : CaptureOffer) (s : State) : (beginHold r resp o s).port = s.port := by
  simp [beginHold]
@[simp] theorem beginHold_access (r : BusRequest) (resp : BusResponse) (o : CaptureOffer) (s : State) : (beginHold r resp o s).access = s.access := by
  simp [beginHold]
@[simp] theorem beginHold_sweep (r : BusRequest) (resp : BusResponse) (o : CaptureOffer) (s : State) : (beginHold r resp o s).sweep = s.sweep := by
  simp [beginHold]
@[simp] theorem beginHold_link (r : BusRequest) (resp : BusResponse) (o : CaptureOffer) (s : State) : (beginHold r resp o s).link = s.link := by
  simp [beginHold]

@[simp] theorem takeOffer_pending (r : BusRequest) (resp : BusResponse) (o : CaptureOffer) (s : State) : (takeOffer r resp o s).pending = s.pending := by
  unfold takeOffer; (repeat' split) <;> simp
@[simp] theorem takeOffer_pins (r : BusRequest) (resp : BusResponse) (o : CaptureOffer) (s : State) : (takeOffer r resp o s).pins = s.pins := by
  unfold takeOffer; (repeat' split) <;> simp
@[simp] theorem takeOffer_table (r : BusRequest) (resp : BusResponse) (o : CaptureOffer) (s : State) : (takeOffer r resp o s).table = s.table := by
  unfold takeOffer; (repeat' split) <;> simp
@[simp] theorem takeOffer_store (r : BusRequest) (resp : BusResponse) (o : CaptureOffer) (s : State) : (takeOffer r resp o s).store = s.store := by
  unfold takeOffer; (repeat' split) <;> simp
@[simp] theorem takeOffer_arbiter (r : BusRequest) (resp : BusResponse) (o : CaptureOffer) (s : State) : (takeOffer r resp o s).arbiter = s.arbiter := by
  unfold takeOffer; (repeat' split) <;> simp
@[simp] theorem takeOffer_port (r : BusRequest) (resp : BusResponse) (o : CaptureOffer) (s : State) : (takeOffer r resp o s).port = s.port := by
  unfold takeOffer; (repeat' split) <;> simp
@[simp] theorem takeOffer_access (r : BusRequest) (resp : BusResponse) (o : CaptureOffer) (s : State) : (takeOffer r resp o s).access = s.access := by
  unfold takeOffer; (repeat' split) <;> simp
@[simp] theorem takeOffer_sweep (r : BusRequest) (resp : BusResponse) (o : CaptureOffer) (s : State) : (takeOffer r resp o s).sweep = s.sweep := by
  unfold takeOffer; (repeat' split) <;> simp
@[simp] theorem takeOffer_link (r : BusRequest) (resp : BusResponse) (o : CaptureOffer) (s : State) : (takeOffer r resp o s).link = s.link := by
  unfold takeOffer; (repeat' split) <;> simp

@[simp] theorem settleUnits_pending (r : BusRequest) (d : Decided) (o : RequestOutcome) (s : State) : (settleUnits r d o s).pending = s.pending := by
  simp [settleUnits]
@[simp] theorem settleUnits_forward (r : BusRequest) (d : Decided) (o : RequestOutcome) (s : State) : (settleUnits r d o s).forward = s.forward := by
  simp [settleUnits]
@[simp] theorem settleUnits_capture (r : BusRequest) (d : Decided) (o : RequestOutcome) (s : State) : (settleUnits r d o s).capture = s.capture := by
  simp [settleUnits]
@[simp] theorem settleUnits_arbiter (r : BusRequest) (d : Decided) (o : RequestOutcome) (s : State) : (settleUnits r d o s).arbiter = s.arbiter := by
  simp [settleUnits]
@[simp] theorem settleUnits_port (r : BusRequest) (d : Decided) (o : RequestOutcome) (s : State) : (settleUnits r d o s).port = s.port := by
  simp [settleUnits]
@[simp] theorem settleUnits_access (r : BusRequest) (d : Decided) (o : RequestOutcome) (s : State) : (settleUnits r d o s).access = s.access := by
  simp [settleUnits]
@[simp] theorem settleUnits_link (r : BusRequest) (d : Decided) (o : RequestOutcome) (s : State) : (settleUnits r d o s).link = s.link := by
  simp [settleUnits]

@[simp] theorem settle_pending (r : BusRequest) (d : Decided) (o : RequestOutcome) (resp : BusResponse) (s : State) : (settle r d o resp s).pending = s.pending := by
  unfold settle; (repeat' split) <;> simp
@[simp] theorem settle_arbiter (r : BusRequest) (d : Decided) (o : RequestOutcome) (resp : BusResponse) (s : State) : (settle r d o resp s).arbiter = s.arbiter := by
  unfold settle; (repeat' split) <;> simp
@[simp] theorem settle_port (r : BusRequest) (d : Decided) (o : RequestOutcome) (resp : BusResponse) (s : State) : (settle r d o resp s).port = s.port := by
  unfold settle; (repeat' split) <;> simp
@[simp] theorem settle_access (r : BusRequest) (d : Decided) (o : RequestOutcome) (resp : BusResponse) (s : State) : (settle r d o resp s).access = s.access := by
  unfold settle; (repeat' split) <;> simp
@[simp] theorem settle_link (r : BusRequest) (d : Decided) (o : RequestOutcome) (resp : BusResponse) (s : State) : (settle r d o resp s).link = s.link := by
  unfold settle; (repeat' split) <;> simp

/-! ## Forwarding path -/

@[simp] theorem requestPort_pending (f : Flight) (s : State) : (requestPort f s).pending = s.pending := by
  simp [requestPort]
@[simp] theorem requestPort_pins (f : Flight) (s : State) : (requestPort f s).pins = s.pins := by
  simp [requestPort]
@[simp] theorem requestPort_control (f : Flight) (s : State) : (requestPort f s).control = s.control := by
  simp [requestPort]
@[simp] theorem requestPort_table (f : Flight) (s : State) : (requestPort f s).table = s.table := by
  simp [requestPort]
@[simp] theorem requestPort_store (f : Flight) (s : State) : (requestPort f s).store = s.store := by
  simp [requestPort]
@[simp] theorem requestPort_capture (f : Flight) (s : State) : (requestPort f s).capture = s.capture := by
  simp [requestPort]
@[simp] theorem requestPort_link (f : Flight) (s : State) : (requestPort f s).link = s.link := by
  simp [requestPort]

@[simp] theorem courseFetched_pending (r : BusRequest) (d : Decided) (s : State) : (courseFetched r d s).pending = s.pending := by
  unfold courseFetched; (repeat' split) <;> simp
@[simp] theorem courseFetched_link (r : BusRequest) (d : Decided) (s : State) : (courseFetched r d s).link = s.link := by
  unfold courseFetched; (repeat' split) <;> simp

@[simp] theorem courseRead_pending (r : BusRequest) (d : Decided) (s : State) : (courseRead r d s).pending = s.pending := by
  unfold courseRead; (repeat' split) <;> simp
@[simp] theorem courseRead_link (r : BusRequest) (d : Decided) (s : State) : (courseRead r d s).link = s.link := by
  unfold courseRead; (repeat' split) <;> simp

@[simp] theorem courseWrite_pending (r : BusRequest) (d : Decided) (s : State) : (courseWrite r d s).pending = s.pending := by
  unfold courseWrite; (repeat' split) <;> simp
@[simp] theorem courseWrite_link (r : BusRequest) (d : Decided) (s : State) : (courseWrite r d s).link = s.link := by
  unfold courseWrite; (repeat' split) <;> simp

@[simp] theorem governActive_pending (r : BusRequest) (s : State) : (governActive r s).pending = s.pending := by
  unfold governActive; (repeat' split) <;> simp
@[simp] theorem governActive_link (r : BusRequest) (s : State) : (governActive r s).link = s.link := by
  unfold governActive; (repeat' split) <;> simp

@[simp] theorem routeRequest_pending (r : BusRequest) (s : State) : (routeRequest r s).pending = s.pending := by
  unfold routeRequest; (repeat' split) <;> simp
@[simp] theorem routeRequest_link (r : BusRequest) (s : State) : (routeRequest r s).link = s.link := by
  unfold routeRequest; (repeat' split) <;> simp

@[simp] theorem acceptRequest_pending (r : BusRequest) (s : State) : (acceptRequest r s).pending = s.pending := by
  simp [acceptRequest]
@[simp] theorem acceptRequest_link (r : BusRequest) (s : State) : (acceptRequest r s).link = s.link := by
  simp [acceptRequest]

@[simp] theorem hostAnswered_pending (f : Flight) (resp : BusResponse) (s : State) : (hostAnswered f resp s).pending = s.pending := by
  unfold hostAnswered; (repeat' split) <;> simp
@[simp] theorem hostAnswered_link (f : Flight) (resp : BusResponse) (s : State) : (hostAnswered f resp s).link = s.link := by
  unfold hostAnswered; (repeat' split) <;> simp

@[simp] theorem hostTimedOut_pending (f : Flight) (s : State) : (hostTimedOut f s).pending = s.pending := by
  unfold hostTimedOut; (repeat' split) <;> simp
@[simp] theorem hostTimedOut_link (f : Flight) (s : State) : (hostTimedOut f s).link = s.link := by
  unfold hostTimedOut; (repeat' split) <;> simp

/-! ## Control unit -/

@[simp] theorem softResetChange_pending (s : State) : (softResetChange s).pending = s.pending := by
  simp [softResetChange]
@[simp] theorem softResetChange_pins (s : State) : (softResetChange s).pins = s.pins := by
  simp [softResetChange]
@[simp] theorem softResetChange_store (s : State) : (softResetChange s).store = s.store := by
  simp [softResetChange]
@[simp] theorem softResetChange_port (s : State) : (softResetChange s).port = s.port := by
  simp [softResetChange]
@[simp] theorem softResetChange_access (s : State) : (softResetChange s).access = s.access := by
  simp [softResetChange]

@[simp] theorem tick_pending (s : State) : (tick s).pending = s.pending := by
  simp [tick]
@[simp] theorem tick_pins (s : State) : (tick s).pins = s.pins := by
  simp [tick]
@[simp] theorem tick_table (s : State) : (tick s).table = s.table := by
  simp [tick]
@[simp] theorem tick_store (s : State) : (tick s).store = s.store := by
  simp [tick]
@[simp] theorem tick_forward (s : State) : (tick s).forward = s.forward := by
  simp [tick]
@[simp] theorem tick_arbiter (s : State) : (tick s).arbiter = s.arbiter := by
  simp [tick]
@[simp] theorem tick_port (s : State) : (tick s).port = s.port := by
  simp [tick]
@[simp] theorem tick_access (s : State) : (tick s).access = s.access := by
  simp [tick]
@[simp] theorem tick_sweep (s : State) : (tick s).sweep = s.sweep := by
  simp [tick]
@[simp] theorem tick_link (s : State) : (tick s).link = s.link := by
  simp [tick]

@[simp] theorem finishClear_pending (s : State) : (finishClear s).pending = s.pending := by
  simp [finishClear]
@[simp] theorem finishClear_pins (s : State) : (finishClear s).pins = s.pins := by
  simp [finishClear]
@[simp] theorem finishClear_table (s : State) : (finishClear s).table = s.table := by
  simp [finishClear]
@[simp] theorem finishClear_forward (s : State) : (finishClear s).forward = s.forward := by
  simp [finishClear]
@[simp] theorem finishClear_capture (s : State) : (finishClear s).capture = s.capture := by
  simp [finishClear]
@[simp] theorem finishClear_arbiter (s : State) : (finishClear s).arbiter = s.arbiter := by
  simp [finishClear]
@[simp] theorem finishClear_port (s : State) : (finishClear s).port = s.port := by
  simp [finishClear]
@[simp] theorem finishClear_access (s : State) : (finishClear s).access = s.access := by
  simp [finishClear]
@[simp] theorem finishClear_sweep (s : State) : (finishClear s).sweep = s.sweep := by
  simp [finishClear]
@[simp] theorem finishClear_link (s : State) : (finishClear s).link = s.link := by
  simp [finishClear]

/-! ## Sweep engine -/

@[simp] theorem endSweep_pending (o : SweepOutcome) (s : State) : (endSweep o s).pending = s.pending := by
  simp [endSweep]
@[simp] theorem endSweep_pins (o : SweepOutcome) (s : State) : (endSweep o s).pins = s.pins := by
  simp [endSweep]
@[simp] theorem endSweep_table (o : SweepOutcome) (s : State) : (endSweep o s).table = s.table := by
  simp [endSweep]
@[simp] theorem endSweep_store (o : SweepOutcome) (s : State) : (endSweep o s).store = s.store := by
  simp [endSweep]
@[simp] theorem endSweep_forward (o : SweepOutcome) (s : State) : (endSweep o s).forward = s.forward := by
  simp [endSweep]
@[simp] theorem endSweep_capture (o : SweepOutcome) (s : State) : (endSweep o s).capture = s.capture := by
  simp [endSweep]
@[simp] theorem endSweep_arbiter (o : SweepOutcome) (s : State) : (endSweep o s).arbiter = s.arbiter := by
  simp [endSweep]
@[simp] theorem endSweep_port (o : SweepOutcome) (s : State) : (endSweep o s).port = s.port := by
  simp [endSweep]
@[simp] theorem endSweep_access (o : SweepOutcome) (s : State) : (endSweep o s).access = s.access := by
  simp [endSweep]
@[simp] theorem endSweep_link (o : SweepOutcome) (s : State) : (endSweep o s).link = s.link := by
  simp [endSweep]

@[simp] theorem failSweep_pending (c : FailCause) (a : Nat) (s : State) : (failSweep c a s).pending = s.pending := by
  simp [failSweep]
@[simp] theorem failSweep_pins (c : FailCause) (a : Nat) (s : State) : (failSweep c a s).pins = s.pins := by
  simp [failSweep]
@[simp] theorem failSweep_table (c : FailCause) (a : Nat) (s : State) : (failSweep c a s).table = s.table := by
  simp [failSweep]
@[simp] theorem failSweep_store (c : FailCause) (a : Nat) (s : State) : (failSweep c a s).store = s.store := by
  simp [failSweep]
@[simp] theorem failSweep_forward (c : FailCause) (a : Nat) (s : State) : (failSweep c a s).forward = s.forward := by
  simp [failSweep]
@[simp] theorem failSweep_capture (c : FailCause) (a : Nat) (s : State) : (failSweep c a s).capture = s.capture := by
  simp [failSweep]
@[simp] theorem failSweep_arbiter (c : FailCause) (a : Nat) (s : State) : (failSweep c a s).arbiter = s.arbiter := by
  simp [failSweep]
@[simp] theorem failSweep_port (c : FailCause) (a : Nat) (s : State) : (failSweep c a s).port = s.port := by
  simp [failSweep]
@[simp] theorem failSweep_access (c : FailCause) (a : Nat) (s : State) : (failSweep c a s).access = s.access := by
  simp [failSweep]
@[simp] theorem failSweep_link (c : FailCause) (a : Nat) (s : State) : (failSweep c a s).link = s.link := by
  simp [failSweep]

@[simp] theorem afterOwnEnd_pending (s : State) : (afterOwnEnd s).pending = s.pending := by
  unfold afterOwnEnd; (repeat' split) <;> simp
@[simp] theorem afterOwnEnd_pins (s : State) : (afterOwnEnd s).pins = s.pins := by
  unfold afterOwnEnd; (repeat' split) <;> simp
@[simp] theorem afterOwnEnd_store (s : State) : (afterOwnEnd s).store = s.store := by
  unfold afterOwnEnd; (repeat' split) <;> simp
@[simp] theorem afterOwnEnd_port (s : State) : (afterOwnEnd s).port = s.port := by
  unfold afterOwnEnd; (repeat' split) <;> simp
@[simp] theorem afterOwnEnd_access (s : State) : (afterOwnEnd s).access = s.access := by
  unfold afterOwnEnd; (repeat' split) <;> simp

@[simp] theorem presentBlock_pending (r : SweepRecord) (ws : List Word) (s : State) : (presentBlock r ws s).pending = s.pending := by
  simp [presentBlock]
@[simp] theorem presentBlock_pins (r : SweepRecord) (ws : List Word) (s : State) : (presentBlock r ws s).pins = s.pins := by
  simp [presentBlock]
@[simp] theorem presentBlock_control (r : SweepRecord) (ws : List Word) (s : State) : (presentBlock r ws s).control = s.control := by
  simp [presentBlock]
@[simp] theorem presentBlock_table (r : SweepRecord) (ws : List Word) (s : State) : (presentBlock r ws s).table = s.table := by
  simp [presentBlock]
@[simp] theorem presentBlock_store (r : SweepRecord) (ws : List Word) (s : State) : (presentBlock r ws s).store = s.store := by
  simp [presentBlock]
@[simp] theorem presentBlock_capture (r : SweepRecord) (ws : List Word) (s : State) : (presentBlock r ws s).capture = s.capture := by
  simp [presentBlock]
@[simp] theorem presentBlock_link (r : SweepRecord) (ws : List Word) (s : State) : (presentBlock r ws s).link = s.link := by
  simp [presentBlock]

@[simp] theorem takeBlock_pending (s : State) : (takeBlock s).pending = s.pending := by
  unfold takeBlock; (repeat' split) <;> simp
@[simp] theorem takeBlock_pins (s : State) : (takeBlock s).pins = s.pins := by
  unfold takeBlock; (repeat' split) <;> simp
@[simp] theorem takeBlock_table (s : State) : (takeBlock s).table = s.table := by
  unfold takeBlock; (repeat' split) <;> simp
@[simp] theorem takeBlock_store (s : State) : (takeBlock s).store = s.store := by
  unfold takeBlock; (repeat' split) <;> simp
@[simp] theorem takeBlock_capture (s : State) : (takeBlock s).capture = s.capture := by
  unfold takeBlock; (repeat' split) <;> simp
@[simp] theorem takeBlock_link (s : State) : (takeBlock s).link = s.link := by
  unfold takeBlock; (repeat' split) <;> simp

@[simp] theorem withdrawBlock_pending (s : State) : (withdrawBlock s).pending = s.pending := by
  simp [withdrawBlock]
@[simp] theorem withdrawBlock_pins (s : State) : (withdrawBlock s).pins = s.pins := by
  simp [withdrawBlock]
@[simp] theorem withdrawBlock_control (s : State) : (withdrawBlock s).control = s.control := by
  simp [withdrawBlock]
@[simp] theorem withdrawBlock_table (s : State) : (withdrawBlock s).table = s.table := by
  simp [withdrawBlock]
@[simp] theorem withdrawBlock_store (s : State) : (withdrawBlock s).store = s.store := by
  simp [withdrawBlock]
@[simp] theorem withdrawBlock_forward (s : State) : (withdrawBlock s).forward = s.forward := by
  simp [withdrawBlock]
@[simp] theorem withdrawBlock_capture (s : State) : (withdrawBlock s).capture = s.capture := by
  simp [withdrawBlock]
@[simp] theorem withdrawBlock_port (s : State) : (withdrawBlock s).port = s.port := by
  simp [withdrawBlock]
@[simp] theorem withdrawBlock_access (s : State) : (withdrawBlock s).access = s.access := by
  simp [withdrawBlock]
@[simp] theorem withdrawBlock_link (s : State) : (withdrawBlock s).link = s.link := by
  simp [withdrawBlock]

@[simp] theorem blockCompleted_pending (s : State) : (blockCompleted s).pending = s.pending := by
  unfold blockCompleted; (repeat' split) <;> simp
@[simp] theorem blockCompleted_pins (s : State) : (blockCompleted s).pins = s.pins := by
  unfold blockCompleted; (repeat' split) <;> simp
@[simp] theorem blockCompleted_store (s : State) : (blockCompleted s).store = s.store := by
  unfold blockCompleted; (repeat' split) <;> simp

@[simp] theorem blockAnswered_pending (r : SweepRecord) (b : Block) (data : List Word) (s : State) : (blockAnswered r b data s).pending = s.pending := by
  unfold blockAnswered; (repeat' split) <;> simp
@[simp] theorem blockAnswered_pins (r : SweepRecord) (b : Block) (data : List Word) (s : State) : (blockAnswered r b data s).pins = s.pins := by
  unfold blockAnswered; (repeat' split) <;> simp

@[simp] theorem blockFailed_pending (a : Bool) (c : FailCause) (b : Block) (s : State) : (blockFailed a c b s).pending = s.pending := by
  simp [blockFailed]
@[simp] theorem blockFailed_pins (a : Bool) (c : FailCause) (b : Block) (s : State) : (blockFailed a c b s).pins = s.pins := by
  simp [blockFailed]
@[simp] theorem blockFailed_store (a : Bool) (c : FailCause) (b : Block) (s : State) : (blockFailed a c b s).store = s.store := by
  simp [blockFailed]

@[simp] theorem sweepAnswered_pending (r : SweepRecord) (b : Block) (resp : BusResponse) (s : State) : (sweepAnswered r b resp s).pending = s.pending := by
  unfold sweepAnswered; (repeat' split) <;> simp
@[simp] theorem sweepAnswered_pins (r : SweepRecord) (b : Block) (resp : BusResponse) (s : State) : (sweepAnswered r b resp s).pins = s.pins := by
  unfold sweepAnswered; (repeat' split) <;> simp

@[simp] theorem startSweep_pending (r : SweepRecord) (s : State) : (startSweep r s).pending = s.pending := by
  simp [startSweep]
@[simp] theorem startSweep_pins (r : SweepRecord) (s : State) : (startSweep r s).pins = s.pins := by
  simp [startSweep]
@[simp] theorem startSweep_table (r : SweepRecord) (s : State) : (startSweep r s).table = s.table := by
  simp [startSweep]
@[simp] theorem startSweep_store (r : SweepRecord) (s : State) : (startSweep r s).store = s.store := by
  simp [startSweep]
@[simp] theorem startSweep_capture (r : SweepRecord) (s : State) : (startSweep r s).capture = s.capture := by
  simp [startSweep]

@[simp] theorem carrySoftReset_pending (s : State) : (carrySoftReset s).pending = s.pending := by
  unfold carrySoftReset; (repeat' split) <;> simp
@[simp] theorem carrySoftReset_pins (s : State) : (carrySoftReset s).pins = s.pins := by
  unfold carrySoftReset; (repeat' split) <;> simp
@[simp] theorem carrySoftReset_store (s : State) : (carrySoftReset s).store = s.store := by
  unfold carrySoftReset; (repeat' split) <;> simp
@[simp] theorem carrySoftReset_port (s : State) : (carrySoftReset s).port = s.port := by
  unfold carrySoftReset; (repeat' split) <;> simp
@[simp] theorem carrySoftReset_access (s : State) : (carrySoftReset s).access = s.access := by
  unfold carrySoftReset; (repeat' split) <;> simp

/-! ## Link access unit -/

@[simp] theorem beginAccess_pending (job : AccessJob) (s : State) : (beginAccess job s).pending = s.pending := by
  simp [beginAccess]
@[simp] theorem beginAccess_pins (job : AccessJob) (s : State) : (beginAccess job s).pins = s.pins := by
  simp [beginAccess]
@[simp] theorem beginAccess_control (job : AccessJob) (s : State) : (beginAccess job s).control = s.control := by
  simp [beginAccess]
@[simp] theorem beginAccess_table (job : AccessJob) (s : State) : (beginAccess job s).table = s.table := by
  simp [beginAccess]
@[simp] theorem beginAccess_store (job : AccessJob) (s : State) : (beginAccess job s).store = s.store := by
  simp [beginAccess]
@[simp] theorem beginAccess_capture (job : AccessJob) (s : State) : (beginAccess job s).capture = s.capture := by
  simp [beginAccess]

@[simp] theorem finishAccess_pending (b : Bool) (st : Status) (p : List Byte) (s : State) : (finishAccess b st p s).pending = s.pending := by
  simp [finishAccess]
@[simp] theorem finishAccess_pins (b : Bool) (st : Status) (p : List Byte) (s : State) : (finishAccess b st p s).pins = s.pins := by
  simp [finishAccess]
@[simp] theorem finishAccess_control (b : Bool) (st : Status) (p : List Byte) (s : State) : (finishAccess b st p s).control = s.control := by
  simp [finishAccess]
@[simp] theorem finishAccess_table (b : Bool) (st : Status) (p : List Byte) (s : State) : (finishAccess b st p s).table = s.table := by
  simp [finishAccess]
@[simp] theorem finishAccess_store (b : Bool) (st : Status) (p : List Byte) (s : State) : (finishAccess b st p s).store = s.store := by
  simp [finishAccess]
@[simp] theorem finishAccess_capture (b : Bool) (st : Status) (p : List Byte) (s : State) : (finishAccess b st p s).capture = s.capture := by
  simp [finishAccess]

@[simp] theorem nextVerifyStep_pending (job : AccessJob) (s : State) : (nextVerifyStep job s).pending = s.pending := by
  simp [nextVerifyStep]
@[simp] theorem nextVerifyStep_pins (job : AccessJob) (s : State) : (nextVerifyStep job s).pins = s.pins := by
  simp [nextVerifyStep]
@[simp] theorem nextVerifyStep_control (job : AccessJob) (s : State) : (nextVerifyStep job s).control = s.control := by
  simp [nextVerifyStep]
@[simp] theorem nextVerifyStep_table (job : AccessJob) (s : State) : (nextVerifyStep job s).table = s.table := by
  simp [nextVerifyStep]
@[simp] theorem nextVerifyStep_store (job : AccessJob) (s : State) : (nextVerifyStep job s).store = s.store := by
  simp [nextVerifyStep]
@[simp] theorem nextVerifyStep_forward (job : AccessJob) (s : State) : (nextVerifyStep job s).forward = s.forward := by
  simp [nextVerifyStep]
@[simp] theorem nextVerifyStep_capture (job : AccessJob) (s : State) : (nextVerifyStep job s).capture = s.capture := by
  simp [nextVerifyStep]
@[simp] theorem nextVerifyStep_arbiter (job : AccessJob) (s : State) : (nextVerifyStep job s).arbiter = s.arbiter := by
  simp [nextVerifyStep]
@[simp] theorem nextVerifyStep_link (job : AccessJob) (s : State) : (nextVerifyStep job s).link = s.link := by
  simp [nextVerifyStep]

@[simp] theorem linkAnswered_pending (job : AccessJob) (data : List Word) (s : State) : (linkAnswered job data s).pending = s.pending := by
  unfold linkAnswered; (repeat' split) <;> simp
@[simp] theorem linkAnswered_pins (job : AccessJob) (data : List Word) (s : State) : (linkAnswered job data s).pins = s.pins := by
  unfold linkAnswered; (repeat' split) <;> simp
@[simp] theorem linkAnswered_control (job : AccessJob) (data : List Word) (s : State) : (linkAnswered job data s).control = s.control := by
  unfold linkAnswered; (repeat' split) <;> simp
@[simp] theorem linkAnswered_table (job : AccessJob) (data : List Word) (s : State) : (linkAnswered job data s).table = s.table := by
  unfold linkAnswered; (repeat' split) <;> simp
@[simp] theorem linkAnswered_store (job : AccessJob) (data : List Word) (s : State) : (linkAnswered job data s).store = s.store := by
  unfold linkAnswered; (repeat' split) <;> simp
@[simp] theorem linkAnswered_capture (job : AccessJob) (data : List Word) (s : State) : (linkAnswered job data s).capture = s.capture := by
  unfold linkAnswered; (repeat' split) <;> simp

@[simp] theorem linkAccessAnswered_pending (job : AccessJob) (resp : BusResponse) (s : State) : (linkAccessAnswered job resp s).pending = s.pending := by
  unfold linkAccessAnswered; (repeat' split) <;> simp
@[simp] theorem linkAccessAnswered_pins (job : AccessJob) (resp : BusResponse) (s : State) : (linkAccessAnswered job resp s).pins = s.pins := by
  unfold linkAccessAnswered; (repeat' split) <;> simp
@[simp] theorem linkAccessAnswered_table (job : AccessJob) (resp : BusResponse) (s : State) : (linkAccessAnswered job resp s).table = s.table := by
  unfold linkAccessAnswered; (repeat' split) <;> simp
@[simp] theorem linkAccessAnswered_store (job : AccessJob) (resp : BusResponse) (s : State) : (linkAccessAnswered job resp s).store = s.store := by
  unfold linkAccessAnswered; (repeat' split) <;> simp
@[simp] theorem linkAccessAnswered_capture (job : AccessJob) (resp : BusResponse) (s : State) : (linkAccessAnswered job resp s).capture = s.capture := by
  unfold linkAccessAnswered; (repeat' split) <;> simp

@[simp] theorem linkTimedOut_pending (job : AccessJob) (s : State) : (linkTimedOut job s).pending = s.pending := by
  simp [linkTimedOut]
@[simp] theorem linkTimedOut_pins (job : AccessJob) (s : State) : (linkTimedOut job s).pins = s.pins := by
  simp [linkTimedOut]
@[simp] theorem linkTimedOut_table (job : AccessJob) (s : State) : (linkTimedOut job s).table = s.table := by
  simp [linkTimedOut]
@[simp] theorem linkTimedOut_store (job : AccessJob) (s : State) : (linkTimedOut job s).store = s.store := by
  simp [linkTimedOut]
@[simp] theorem linkTimedOut_capture (job : AccessJob) (s : State) : (linkTimedOut job s).capture = s.capture := by
  simp [linkTimedOut]

/-! ## Boundary commands -/

@[simp] theorem carryTableCommit_pending (s : State) : (carryTableCommit s).pending = s.pending := by
  unfold carryTableCommit; (repeat' split) <;> simp
@[simp] theorem carryTableCommit_pins (s : State) : (carryTableCommit s).pins = s.pins := by
  unfold carryTableCommit; (repeat' split) <;> simp
@[simp] theorem carryTableCommit_control (s : State) : (carryTableCommit s).control = s.control := by
  unfold carryTableCommit; (repeat' split) <;> simp
@[simp] theorem carryTableCommit_store (s : State) : (carryTableCommit s).store = s.store := by
  unfold carryTableCommit; (repeat' split) <;> simp
@[simp] theorem carryTableCommit_forward (s : State) : (carryTableCommit s).forward = s.forward := by
  unfold carryTableCommit; (repeat' split) <;> simp
@[simp] theorem carryTableCommit_capture (s : State) : (carryTableCommit s).capture = s.capture := by
  unfold carryTableCommit; (repeat' split) <;> simp
@[simp] theorem carryTableCommit_arbiter (s : State) : (carryTableCommit s).arbiter = s.arbiter := by
  unfold carryTableCommit; (repeat' split) <;> simp
@[simp] theorem carryTableCommit_port (s : State) : (carryTableCommit s).port = s.port := by
  unfold carryTableCommit; (repeat' split) <;> simp
@[simp] theorem carryTableCommit_access (s : State) : (carryTableCommit s).access = s.access := by
  unfold carryTableCommit; (repeat' split) <;> simp
@[simp] theorem carryTableCommit_sweep (s : State) : (carryTableCommit s).sweep = s.sweep := by
  unfold carryTableCommit; (repeat' split) <;> simp

@[simp] theorem carrySlotState_pending (i : Nat) (st : SlotState) (s : State) : (carrySlotState i st s).pending = s.pending := by
  unfold carrySlotState; (repeat' split) <;> simp
@[simp] theorem carrySlotState_pins (i : Nat) (st : SlotState) (s : State) : (carrySlotState i st s).pins = s.pins := by
  unfold carrySlotState; (repeat' split) <;> simp
@[simp] theorem carrySlotState_control (i : Nat) (st : SlotState) (s : State) : (carrySlotState i st s).control = s.control := by
  unfold carrySlotState; (repeat' split) <;> simp
@[simp] theorem carrySlotState_store (i : Nat) (st : SlotState) (s : State) : (carrySlotState i st s).store = s.store := by
  unfold carrySlotState; (repeat' split) <;> simp
@[simp] theorem carrySlotState_forward (i : Nat) (st : SlotState) (s : State) : (carrySlotState i st s).forward = s.forward := by
  unfold carrySlotState; (repeat' split) <;> simp
@[simp] theorem carrySlotState_capture (i : Nat) (st : SlotState) (s : State) : (carrySlotState i st s).capture = s.capture := by
  unfold carrySlotState; (repeat' split) <;> simp
@[simp] theorem carrySlotState_arbiter (i : Nat) (st : SlotState) (s : State) : (carrySlotState i st s).arbiter = s.arbiter := by
  unfold carrySlotState; (repeat' split) <;> simp
@[simp] theorem carrySlotState_port (i : Nat) (st : SlotState) (s : State) : (carrySlotState i st s).port = s.port := by
  unfold carrySlotState; (repeat' split) <;> simp
@[simp] theorem carrySlotState_access (i : Nat) (st : SlotState) (s : State) : (carrySlotState i st s).access = s.access := by
  unfold carrySlotState; (repeat' split) <;> simp
@[simp] theorem carrySlotState_sweep (i : Nat) (st : SlotState) (s : State) : (carrySlotState i st s).sweep = s.sweep := by
  unfold carrySlotState; (repeat' split) <;> simp

@[simp] theorem carrySlotAck_pending (i : Nat) (s : State) : (carrySlotAck i s).pending = s.pending := by
  simp [carrySlotAck]
@[simp] theorem carrySlotAck_pins (i : Nat) (s : State) : (carrySlotAck i s).pins = s.pins := by
  simp [carrySlotAck]
@[simp] theorem carrySlotAck_control (i : Nat) (s : State) : (carrySlotAck i s).control = s.control := by
  simp [carrySlotAck]
@[simp] theorem carrySlotAck_store (i : Nat) (s : State) : (carrySlotAck i s).store = s.store := by
  simp [carrySlotAck]
@[simp] theorem carrySlotAck_forward (i : Nat) (s : State) : (carrySlotAck i s).forward = s.forward := by
  simp [carrySlotAck]
@[simp] theorem carrySlotAck_capture (i : Nat) (s : State) : (carrySlotAck i s).capture = s.capture := by
  simp [carrySlotAck]
@[simp] theorem carrySlotAck_arbiter (i : Nat) (s : State) : (carrySlotAck i s).arbiter = s.arbiter := by
  simp [carrySlotAck]
@[simp] theorem carrySlotAck_port (i : Nat) (s : State) : (carrySlotAck i s).port = s.port := by
  simp [carrySlotAck]
@[simp] theorem carrySlotAck_access (i : Nat) (s : State) : (carrySlotAck i s).access = s.access := by
  simp [carrySlotAck]
@[simp] theorem carrySlotAck_sweep (i : Nat) (s : State) : (carrySlotAck i s).sweep = s.sweep := by
  simp [carrySlotAck]

@[simp] theorem carryStoreWrite_pending (o : Nat) (p : Bool) (ws : List Word) (s : State) : (carryStoreWrite o p ws s).pending = s.pending := by
  unfold carryStoreWrite; (repeat' split) <;> simp
@[simp] theorem carryStoreWrite_pins (o : Nat) (p : Bool) (ws : List Word) (s : State) : (carryStoreWrite o p ws s).pins = s.pins := by
  unfold carryStoreWrite; (repeat' split) <;> simp
@[simp] theorem carryStoreWrite_control (o : Nat) (p : Bool) (ws : List Word) (s : State) : (carryStoreWrite o p ws s).control = s.control := by
  unfold carryStoreWrite; (repeat' split) <;> simp
@[simp] theorem carryStoreWrite_table (o : Nat) (p : Bool) (ws : List Word) (s : State) : (carryStoreWrite o p ws s).table = s.table := by
  unfold carryStoreWrite; (repeat' split) <;> simp
@[simp] theorem carryStoreWrite_forward (o : Nat) (p : Bool) (ws : List Word) (s : State) : (carryStoreWrite o p ws s).forward = s.forward := by
  unfold carryStoreWrite; (repeat' split) <;> simp
@[simp] theorem carryStoreWrite_capture (o : Nat) (p : Bool) (ws : List Word) (s : State) : (carryStoreWrite o p ws s).capture = s.capture := by
  unfold carryStoreWrite; (repeat' split) <;> simp
@[simp] theorem carryStoreWrite_arbiter (o : Nat) (p : Bool) (ws : List Word) (s : State) : (carryStoreWrite o p ws s).arbiter = s.arbiter := by
  unfold carryStoreWrite; (repeat' split) <;> simp
@[simp] theorem carryStoreWrite_port (o : Nat) (p : Bool) (ws : List Word) (s : State) : (carryStoreWrite o p ws s).port = s.port := by
  unfold carryStoreWrite; (repeat' split) <;> simp
@[simp] theorem carryStoreWrite_access (o : Nat) (p : Bool) (ws : List Word) (s : State) : (carryStoreWrite o p ws s).access = s.access := by
  unfold carryStoreWrite; (repeat' split) <;> simp
@[simp] theorem carryStoreWrite_sweep (o : Nat) (p : Bool) (ws : List Word) (s : State) : (carryStoreWrite o p ws s).sweep = s.sweep := by
  unfold carryStoreWrite; (repeat' split) <;> simp

@[simp] theorem carryEngage_pending (s : State) : (carryEngage s).pending = s.pending := by
  unfold carryEngage; (repeat' split) <;> simp
@[simp] theorem carryEngage_pins (s : State) : (carryEngage s).pins = s.pins := by
  unfold carryEngage; (repeat' split) <;> simp
@[simp] theorem carryEngage_table (s : State) : (carryEngage s).table = s.table := by
  unfold carryEngage; (repeat' split) <;> simp
@[simp] theorem carryEngage_store (s : State) : (carryEngage s).store = s.store := by
  unfold carryEngage; (repeat' split) <;> simp
@[simp] theorem carryEngage_forward (s : State) : (carryEngage s).forward = s.forward := by
  unfold carryEngage; (repeat' split) <;> simp
@[simp] theorem carryEngage_capture (s : State) : (carryEngage s).capture = s.capture := by
  unfold carryEngage; (repeat' split) <;> simp
@[simp] theorem carryEngage_arbiter (s : State) : (carryEngage s).arbiter = s.arbiter := by
  unfold carryEngage; (repeat' split) <;> simp
@[simp] theorem carryEngage_port (s : State) : (carryEngage s).port = s.port := by
  unfold carryEngage; (repeat' split) <;> simp
@[simp] theorem carryEngage_access (s : State) : (carryEngage s).access = s.access := by
  unfold carryEngage; (repeat' split) <;> simp
@[simp] theorem carryEngage_sweep (s : State) : (carryEngage s).sweep = s.sweep := by
  unfold carryEngage; (repeat' split) <;> simp

@[simp] theorem leaveActive_pending (f : Bool) (s : State) : (leaveActive f s).pending = s.pending := by
  unfold leaveActive; (repeat' split) <;> simp
@[simp] theorem leaveActive_pins (f : Bool) (s : State) : (leaveActive f s).pins = s.pins := by
  unfold leaveActive; (repeat' split) <;> simp
@[simp] theorem leaveActive_table (f : Bool) (s : State) : (leaveActive f s).table = s.table := by
  unfold leaveActive; (repeat' split) <;> simp
@[simp] theorem leaveActive_store (f : Bool) (s : State) : (leaveActive f s).store = s.store := by
  unfold leaveActive; (repeat' split) <;> simp
@[simp] theorem leaveActive_forward (f : Bool) (s : State) : (leaveActive f s).forward = s.forward := by
  unfold leaveActive; (repeat' split) <;> simp
@[simp] theorem leaveActive_capture (f : Bool) (s : State) : (leaveActive f s).capture = s.capture := by
  unfold leaveActive; (repeat' split) <;> simp
@[simp] theorem leaveActive_arbiter (f : Bool) (s : State) : (leaveActive f s).arbiter = s.arbiter := by
  unfold leaveActive; (repeat' split) <;> simp
@[simp] theorem leaveActive_port (f : Bool) (s : State) : (leaveActive f s).port = s.port := by
  unfold leaveActive; (repeat' split) <;> simp
@[simp] theorem leaveActive_access (f : Bool) (s : State) : (leaveActive f s).access = s.access := by
  unfold leaveActive; (repeat' split) <;> simp
@[simp] theorem leaveActive_sweep (f : Bool) (s : State) : (leaveActive f s).sweep = s.sweep := by
  unfold leaveActive; (repeat' split) <;> simp

@[simp] theorem carryDisengage_pending (f : Bool) (s : State) : (carryDisengage f s).pending = s.pending := by
  unfold carryDisengage; (repeat' split) <;> simp
@[simp] theorem carryDisengage_pins (f : Bool) (s : State) : (carryDisengage f s).pins = s.pins := by
  unfold carryDisengage; (repeat' split) <;> simp
@[simp] theorem carryDisengage_table (f : Bool) (s : State) : (carryDisengage f s).table = s.table := by
  unfold carryDisengage; (repeat' split) <;> simp
@[simp] theorem carryDisengage_store (f : Bool) (s : State) : (carryDisengage f s).store = s.store := by
  unfold carryDisengage; (repeat' split) <;> simp
@[simp] theorem carryDisengage_forward (f : Bool) (s : State) : (carryDisengage f s).forward = s.forward := by
  unfold carryDisengage; (repeat' split) <;> simp
@[simp] theorem carryDisengage_capture (f : Bool) (s : State) : (carryDisengage f s).capture = s.capture := by
  unfold carryDisengage; (repeat' split) <;> simp
@[simp] theorem carryDisengage_arbiter (f : Bool) (s : State) : (carryDisengage f s).arbiter = s.arbiter := by
  unfold carryDisengage; (repeat' split) <;> simp
@[simp] theorem carryDisengage_port (f : Bool) (s : State) : (carryDisengage f s).port = s.port := by
  unfold carryDisengage; (repeat' split) <;> simp
@[simp] theorem carryDisengage_access (f : Bool) (s : State) : (carryDisengage f s).access = s.access := by
  unfold carryDisengage; (repeat' split) <;> simp
@[simp] theorem carryDisengage_sweep (f : Bool) (s : State) : (carryDisengage f s).sweep = s.sweep := by
  unfold carryDisengage; (repeat' split) <;> simp

/-! ## Link interface -/

@[simp] theorem beginExchange_pending (s : State) : (beginExchange s).pending = s.pending := by
  simp [beginExchange]
@[simp] theorem beginExchange_pins (s : State) : (beginExchange s).pins = s.pins := by
  simp [beginExchange]
@[simp] theorem beginExchange_control (s : State) : (beginExchange s).control = s.control := by
  simp [beginExchange]
@[simp] theorem beginExchange_table (s : State) : (beginExchange s).table = s.table := by
  simp [beginExchange]
@[simp] theorem beginExchange_store (s : State) : (beginExchange s).store = s.store := by
  simp [beginExchange]
@[simp] theorem beginExchange_forward (s : State) : (beginExchange s).forward = s.forward := by
  simp [beginExchange]
@[simp] theorem beginExchange_capture (s : State) : (beginExchange s).capture = s.capture := by
  simp [beginExchange]
@[simp] theorem beginExchange_arbiter (s : State) : (beginExchange s).arbiter = s.arbiter := by
  simp [beginExchange]
@[simp] theorem beginExchange_port (s : State) : (beginExchange s).port = s.port := by
  simp [beginExchange]
@[simp] theorem beginExchange_access (s : State) : (beginExchange s).access = s.access := by
  simp [beginExchange]
@[simp] theorem beginExchange_sweep (s : State) : (beginExchange s).sweep = s.sweep := by
  simp [beginExchange]

@[simp] theorem acknowledge_pending (a : Option Byte) (s : State) : (acknowledge a s).pending = s.pending := by
  unfold acknowledge; (repeat' split) <;> simp
@[simp] theorem acknowledge_pins (a : Option Byte) (s : State) : (acknowledge a s).pins = s.pins := by
  unfold acknowledge; (repeat' split) <;> simp
@[simp] theorem acknowledge_control (a : Option Byte) (s : State) : (acknowledge a s).control = s.control := by
  unfold acknowledge; (repeat' split) <;> simp
@[simp] theorem acknowledge_table (a : Option Byte) (s : State) : (acknowledge a s).table = s.table := by
  unfold acknowledge; (repeat' split) <;> simp
@[simp] theorem acknowledge_store (a : Option Byte) (s : State) : (acknowledge a s).store = s.store := by
  unfold acknowledge; (repeat' split) <;> simp
@[simp] theorem acknowledge_forward (a : Option Byte) (s : State) : (acknowledge a s).forward = s.forward := by
  unfold acknowledge; (repeat' split) <;> simp
@[simp] theorem acknowledge_capture (a : Option Byte) (s : State) : (acknowledge a s).capture = s.capture := by
  unfold acknowledge; (repeat' split) <;> simp
@[simp] theorem acknowledge_arbiter (a : Option Byte) (s : State) : (acknowledge a s).arbiter = s.arbiter := by
  unfold acknowledge; (repeat' split) <;> simp
@[simp] theorem acknowledge_port (a : Option Byte) (s : State) : (acknowledge a s).port = s.port := by
  unfold acknowledge; (repeat' split) <;> simp
@[simp] theorem acknowledge_access (a : Option Byte) (s : State) : (acknowledge a s).access = s.access := by
  unfold acknowledge; (repeat' split) <;> simp
@[simp] theorem acknowledge_sweep (a : Option Byte) (s : State) : (acknowledge a s).sweep = s.sweep := by
  unfold acknowledge; (repeat' split) <;> simp

@[simp] theorem examine_pending (bs : List Byte) (s : State) : (examine bs s).pending = s.pending := by
  unfold examine; (repeat' split) <;> simp
@[simp] theorem examine_pins (bs : List Byte) (s : State) : (examine bs s).pins = s.pins := by
  unfold examine; (repeat' split) <;> simp
@[simp] theorem examine_table (bs : List Byte) (s : State) : (examine bs s).table = s.table := by
  unfold examine; (repeat' split) <;> simp
@[simp] theorem examine_store (bs : List Byte) (s : State) : (examine bs s).store = s.store := by
  unfold examine; (repeat' split) <;> simp
@[simp] theorem examine_forward (bs : List Byte) (s : State) : (examine bs s).forward = s.forward := by
  unfold examine; (repeat' split) <;> simp
@[simp] theorem examine_capture (bs : List Byte) (s : State) : (examine bs s).capture = s.capture := by
  unfold examine; (repeat' split) <;> simp
@[simp] theorem examine_arbiter (bs : List Byte) (s : State) : (examine bs s).arbiter = s.arbiter := by
  unfold examine; (repeat' split) <;> simp
@[simp] theorem examine_port (bs : List Byte) (s : State) : (examine bs s).port = s.port := by
  unfold examine; (repeat' split) <;> simp
@[simp] theorem examine_access (bs : List Byte) (s : State) : (examine bs s).access = s.access := by
  unfold examine; (repeat' split) <;> simp
@[simp] theorem examine_sweep (bs : List Byte) (s : State) : (examine bs s).sweep = s.sweep := by
  unfold examine; (repeat' split) <;> simp

@[simp] theorem closeExchange_pending (s : State) : (closeExchange s).pending = s.pending := by
  unfold closeExchange; (repeat' split) <;> simp
@[simp] theorem closeExchange_pins (s : State) : (closeExchange s).pins = s.pins := by
  unfold closeExchange; (repeat' split) <;> simp
@[simp] theorem closeExchange_control (s : State) : (closeExchange s).control = s.control := by
  unfold closeExchange; (repeat' split) <;> simp
@[simp] theorem closeExchange_table (s : State) : (closeExchange s).table = s.table := by
  unfold closeExchange; (repeat' split) <;> simp
@[simp] theorem closeExchange_store (s : State) : (closeExchange s).store = s.store := by
  unfold closeExchange; (repeat' split) <;> simp
@[simp] theorem closeExchange_forward (s : State) : (closeExchange s).forward = s.forward := by
  unfold closeExchange; (repeat' split) <;> simp
@[simp] theorem closeExchange_capture (s : State) : (closeExchange s).capture = s.capture := by
  unfold closeExchange; (repeat' split) <;> simp
@[simp] theorem closeExchange_arbiter (s : State) : (closeExchange s).arbiter = s.arbiter := by
  unfold closeExchange; (repeat' split) <;> simp
@[simp] theorem closeExchange_port (s : State) : (closeExchange s).port = s.port := by
  unfold closeExchange; (repeat' split) <;> simp
@[simp] theorem closeExchange_access (s : State) : (closeExchange s).access = s.access := by
  unfold closeExchange; (repeat' split) <;> simp
@[simp] theorem closeExchange_sweep (s : State) : (closeExchange s).sweep = s.sweep := by
  unfold closeExchange; (repeat' split) <;> simp

@[simp] theorem endExchange_pending (bits : List Bool) (s : State) : (endExchange bits s).pending = s.pending := by
  unfold endExchange; (repeat' split) <;> simp
@[simp] theorem endExchange_pins (bits : List Bool) (s : State) : (endExchange bits s).pins = s.pins := by
  unfold endExchange; (repeat' split) <;> simp
@[simp] theorem endExchange_table (bits : List Bool) (s : State) : (endExchange bits s).table = s.table := by
  unfold endExchange; (repeat' split) <;> simp
@[simp] theorem endExchange_store (bits : List Bool) (s : State) : (endExchange bits s).store = s.store := by
  unfold endExchange; (repeat' split) <;> simp
@[simp] theorem endExchange_forward (bits : List Bool) (s : State) : (endExchange bits s).forward = s.forward := by
  unfold endExchange; (repeat' split) <;> simp
@[simp] theorem endExchange_capture (bits : List Bool) (s : State) : (endExchange bits s).capture = s.capture := by
  unfold endExchange; (repeat' split) <;> simp
@[simp] theorem endExchange_arbiter (bits : List Bool) (s : State) : (endExchange bits s).arbiter = s.arbiter := by
  unfold endExchange; (repeat' split) <;> simp
@[simp] theorem endExchange_port (bits : List Bool) (s : State) : (endExchange bits s).port = s.port := by
  unfold endExchange; (repeat' split) <;> simp
@[simp] theorem endExchange_access (bits : List Bool) (s : State) : (endExchange bits s).access = s.access := by
  unfold endExchange; (repeat' split) <;> simp
@[simp] theorem endExchange_sweep (bits : List Bool) (s : State) : (endExchange bits s).sweep = s.sweep := by
  unfold endExchange; (repeat' split) <;> simp

/-! ## Commands at their blocks -/

@[simp] theorem carryAtIdle_pending (s : State) : (carryAtIdle s).pending = s.pending := by
  unfold carryAtIdle; (repeat' split) <;> simp
@[simp] theorem carryAtIdle_pins (s : State) : (carryAtIdle s).pins = s.pins := by
  unfold carryAtIdle; (repeat' split) <;> simp
@[simp] theorem carryAtIdle_store (s : State) : (carryAtIdle s).store = s.store := by
  unfold carryAtIdle; (repeat' split) <;> simp
@[simp] theorem carryAtIdle_port (s : State) : (carryAtIdle s).port = s.port := by
  unfold carryAtIdle; (repeat' split) <;> simp
@[simp] theorem carryAtIdle_access (s : State) : (carryAtIdle s).access = s.access := by
  unfold carryAtIdle; (repeat' split) <;> simp

@[simp] theorem takeSoftReset_pending (s : State) : (takeSoftReset s).pending = s.pending := by
  simp [takeSoftReset]
@[simp] theorem takeSoftReset_pins (s : State) : (takeSoftReset s).pins = s.pins := by
  simp [takeSoftReset]
@[simp] theorem takeSoftReset_store (s : State) : (takeSoftReset s).store = s.store := by
  simp [takeSoftReset]
@[simp] theorem takeSoftReset_port (s : State) : (takeSoftReset s).port = s.port := by
  simp [takeSoftReset]
@[simp] theorem takeSoftReset_access (s : State) : (takeSoftReset s).access = s.access := by
  simp [takeSoftReset]

@[simp] theorem writeConfig_pending (c : ConfigSet) (s : State) : (writeConfig c s).pending = s.pending := by
  unfold writeConfig; (repeat' split) <;> simp
@[simp] theorem writeConfig_pins (c : ConfigSet) (s : State) : (writeConfig c s).pins = s.pins := by
  unfold writeConfig; (repeat' split) <;> simp
@[simp] theorem writeConfig_table (c : ConfigSet) (s : State) : (writeConfig c s).table = s.table := by
  unfold writeConfig; (repeat' split) <;> simp
@[simp] theorem writeConfig_store (c : ConfigSet) (s : State) : (writeConfig c s).store = s.store := by
  unfold writeConfig; (repeat' split) <;> simp
@[simp] theorem writeConfig_forward (c : ConfigSet) (s : State) : (writeConfig c s).forward = s.forward := by
  unfold writeConfig; (repeat' split) <;> simp
@[simp] theorem writeConfig_capture (c : ConfigSet) (s : State) : (writeConfig c s).capture = s.capture := by
  unfold writeConfig; (repeat' split) <;> simp
@[simp] theorem writeConfig_arbiter (c : ConfigSet) (s : State) : (writeConfig c s).arbiter = s.arbiter := by
  unfold writeConfig; (repeat' split) <;> simp
@[simp] theorem writeConfig_port (c : ConfigSet) (s : State) : (writeConfig c s).port = s.port := by
  unfold writeConfig; (repeat' split) <;> simp
@[simp] theorem writeConfig_access (c : ConfigSet) (s : State) : (writeConfig c s).access = s.access := by
  unfold writeConfig; (repeat' split) <;> simp
@[simp] theorem writeConfig_sweep (c : ConfigSet) (s : State) : (writeConfig c s).sweep = s.sweep := by
  unfold writeConfig; (repeat' split) <;> simp
@[simp] theorem writeConfig_link (c : ConfigSet) (s : State) : (writeConfig c s).link = s.link := by
  unfold writeConfig; (repeat' split) <;> simp

@[simp] theorem clearCauses_pending (n : CauseSet) (s : State) : (clearCauses n s).pending = s.pending := by
  simp [clearCauses]
@[simp] theorem clearCauses_pins (n : CauseSet) (s : State) : (clearCauses n s).pins = s.pins := by
  simp [clearCauses]
@[simp] theorem clearCauses_table (n : CauseSet) (s : State) : (clearCauses n s).table = s.table := by
  simp [clearCauses]
@[simp] theorem clearCauses_store (n : CauseSet) (s : State) : (clearCauses n s).store = s.store := by
  simp [clearCauses]
@[simp] theorem clearCauses_forward (n : CauseSet) (s : State) : (clearCauses n s).forward = s.forward := by
  simp [clearCauses]
@[simp] theorem clearCauses_capture (n : CauseSet) (s : State) : (clearCauses n s).capture = s.capture := by
  simp [clearCauses]
@[simp] theorem clearCauses_arbiter (n : CauseSet) (s : State) : (clearCauses n s).arbiter = s.arbiter := by
  simp [clearCauses]
@[simp] theorem clearCauses_port (n : CauseSet) (s : State) : (clearCauses n s).port = s.port := by
  simp [clearCauses]
@[simp] theorem clearCauses_access (n : CauseSet) (s : State) : (clearCauses n s).access = s.access := by
  simp [clearCauses]
@[simp] theorem clearCauses_sweep (n : CauseSet) (s : State) : (clearCauses n s).sweep = s.sweep := by
  simp [clearCauses]
@[simp] theorem clearCauses_link (n : CauseSet) (s : State) : (clearCauses n s).link = s.link := by
  simp [clearCauses]

@[simp] theorem ackCauses_pending (n : CauseSet) (s : State) : (ackCauses n s).pending = s.pending := by
  simp [ackCauses]
@[simp] theorem ackCauses_pins (n : CauseSet) (s : State) : (ackCauses n s).pins = s.pins := by
  simp [ackCauses]
@[simp] theorem ackCauses_table (n : CauseSet) (s : State) : (ackCauses n s).table = s.table := by
  simp [ackCauses]
@[simp] theorem ackCauses_store (n : CauseSet) (s : State) : (ackCauses n s).store = s.store := by
  simp [ackCauses]
@[simp] theorem ackCauses_forward (n : CauseSet) (s : State) : (ackCauses n s).forward = s.forward := by
  simp [ackCauses]
@[simp] theorem ackCauses_capture (n : CauseSet) (s : State) : (ackCauses n s).capture = s.capture := by
  simp [ackCauses]
@[simp] theorem ackCauses_arbiter (n : CauseSet) (s : State) : (ackCauses n s).arbiter = s.arbiter := by
  simp [ackCauses]
@[simp] theorem ackCauses_port (n : CauseSet) (s : State) : (ackCauses n s).port = s.port := by
  simp [ackCauses]
@[simp] theorem ackCauses_access (n : CauseSet) (s : State) : (ackCauses n s).access = s.access := by
  simp [ackCauses]
@[simp] theorem ackCauses_sweep (n : CauseSet) (s : State) : (ackCauses n s).sweep = s.sweep := by
  simp [ackCauses]

@[simp] theorem acknowledgeRecords_pending (n : Nat) (s : State) : (acknowledgeRecords n s).pending = s.pending := by
  simp [acknowledgeRecords]
@[simp] theorem acknowledgeRecords_pins (n : Nat) (s : State) : (acknowledgeRecords n s).pins = s.pins := by
  simp [acknowledgeRecords]
@[simp] theorem acknowledgeRecords_table (n : Nat) (s : State) : (acknowledgeRecords n s).table = s.table := by
  simp [acknowledgeRecords]
@[simp] theorem acknowledgeRecords_store (n : Nat) (s : State) : (acknowledgeRecords n s).store = s.store := by
  simp [acknowledgeRecords]
@[simp] theorem acknowledgeRecords_arbiter (n : Nat) (s : State) : (acknowledgeRecords n s).arbiter = s.arbiter := by
  simp [acknowledgeRecords]
@[simp] theorem acknowledgeRecords_port (n : Nat) (s : State) : (acknowledgeRecords n s).port = s.port := by
  simp [acknowledgeRecords]
@[simp] theorem acknowledgeRecords_access (n : Nat) (s : State) : (acknowledgeRecords n s).access = s.access := by
  simp [acknowledgeRecords]
@[simp] theorem acknowledgeRecords_sweep (n : Nat) (s : State) : (acknowledgeRecords n s).sweep = s.sweep := by
  simp [acknowledgeRecords]

@[simp] theorem flushRecords_pending (s : State) : (flushRecords s).pending = s.pending := by
  unfold flushRecords; (repeat' split) <;> simp
@[simp] theorem flushRecords_pins (s : State) : (flushRecords s).pins = s.pins := by
  unfold flushRecords; (repeat' split) <;> simp
@[simp] theorem flushRecords_table (s : State) : (flushRecords s).table = s.table := by
  unfold flushRecords; (repeat' split) <;> simp
@[simp] theorem flushRecords_store (s : State) : (flushRecords s).store = s.store := by
  unfold flushRecords; (repeat' split) <;> simp
@[simp] theorem flushRecords_arbiter (s : State) : (flushRecords s).arbiter = s.arbiter := by
  unfold flushRecords; (repeat' split) <;> simp
@[simp] theorem flushRecords_port (s : State) : (flushRecords s).port = s.port := by
  unfold flushRecords; (repeat' split) <;> simp
@[simp] theorem flushRecords_access (s : State) : (flushRecords s).access = s.access := by
  unfold flushRecords; (repeat' split) <;> simp
@[simp] theorem flushRecords_sweep (s : State) : (flushRecords s).sweep = s.sweep := by
  unfold flushRecords; (repeat' split) <;> simp

@[simp] theorem proceedView_pending (a n : Nat) (v : List ViewWord) (o : RequestOutcome) (s : State) : (proceedView a n v o s).pending = s.pending := by
  unfold proceedView; (repeat' split) <;> simp
@[simp] theorem proceedView_pins (a n : Nat) (v : List ViewWord) (o : RequestOutcome) (s : State) : (proceedView a n v o s).pins = s.pins := by
  unfold proceedView; (repeat' split) <;> simp
@[simp] theorem proceedView_control (a n : Nat) (v : List ViewWord) (o : RequestOutcome) (s : State) : (proceedView a n v o s).control = s.control := by
  unfold proceedView; (repeat' split) <;> simp
@[simp] theorem proceedView_table (a n : Nat) (v : List ViewWord) (o : RequestOutcome) (s : State) : (proceedView a n v o s).table = s.table := by
  unfold proceedView; (repeat' split) <;> simp
@[simp] theorem proceedView_store (a n : Nat) (v : List ViewWord) (o : RequestOutcome) (s : State) : (proceedView a n v o s).store = s.store := by
  unfold proceedView; (repeat' split) <;> simp
@[simp] theorem proceedView_capture (a n : Nat) (v : List ViewWord) (o : RequestOutcome) (s : State) : (proceedView a n v o s).capture = s.capture := by
  unfold proceedView; (repeat' split) <;> simp

@[simp] theorem takeReadView_pending (a n : Nat) (s : State) : (takeReadView a n s).pending = s.pending := by
  unfold takeReadView; (repeat' split) <;> simp
@[simp] theorem takeReadView_pins (a n : Nat) (s : State) : (takeReadView a n s).pins = s.pins := by
  unfold takeReadView; (repeat' split) <;> simp
@[simp] theorem takeReadView_control (a n : Nat) (s : State) : (takeReadView a n s).control = s.control := by
  unfold takeReadView; (repeat' split) <;> simp
@[simp] theorem takeReadView_table (a n : Nat) (s : State) : (takeReadView a n s).table = s.table := by
  unfold takeReadView; (repeat' split) <;> simp
@[simp] theorem takeReadView_store (a n : Nat) (s : State) : (takeReadView a n s).store = s.store := by
  unfold takeReadView; (repeat' split) <;> simp
@[simp] theorem takeReadView_capture (a n : Nat) (s : State) : (takeReadView a n s).capture = s.capture := by
  unfold takeReadView; (repeat' split) <;> simp

@[simp] theorem takeSweepFill_pending (a n o : Nat) (s : State) : (takeSweepFill a n o s).pending = s.pending := by
  unfold takeSweepFill; (repeat' split) <;> simp
@[simp] theorem takeSweepFill_pins (a n o : Nat) (s : State) : (takeSweepFill a n o s).pins = s.pins := by
  unfold takeSweepFill; (repeat' split) <;> simp
@[simp] theorem takeSweepFill_table (a n o : Nat) (s : State) : (takeSweepFill a n o s).table = s.table := by
  unfold takeSweepFill; (repeat' split) <;> simp
@[simp] theorem takeSweepFill_store (a n o : Nat) (s : State) : (takeSweepFill a n o s).store = s.store := by
  unfold takeSweepFill; (repeat' split) <;> simp
@[simp] theorem takeSweepFill_capture (a n o : Nat) (s : State) : (takeSweepFill a n o s).capture = s.capture := by
  unfold takeSweepFill; (repeat' split) <;> simp

@[simp] theorem takeSweepSuspend_pending (s : State) : (takeSweepSuspend s).pending = s.pending := by
  unfold takeSweepSuspend; (repeat' split) <;> simp
@[simp] theorem takeSweepSuspend_pins (s : State) : (takeSweepSuspend s).pins = s.pins := by
  unfold takeSweepSuspend; (repeat' split) <;> simp
@[simp] theorem takeSweepSuspend_control (s : State) : (takeSweepSuspend s).control = s.control := by
  unfold takeSweepSuspend; (repeat' split) <;> simp
@[simp] theorem takeSweepSuspend_table (s : State) : (takeSweepSuspend s).table = s.table := by
  unfold takeSweepSuspend; (repeat' split) <;> simp
@[simp] theorem takeSweepSuspend_store (s : State) : (takeSweepSuspend s).store = s.store := by
  unfold takeSweepSuspend; (repeat' split) <;> simp
@[simp] theorem takeSweepSuspend_forward (s : State) : (takeSweepSuspend s).forward = s.forward := by
  unfold takeSweepSuspend; (repeat' split) <;> simp
@[simp] theorem takeSweepSuspend_capture (s : State) : (takeSweepSuspend s).capture = s.capture := by
  unfold takeSweepSuspend; (repeat' split) <;> simp
@[simp] theorem takeSweepSuspend_port (s : State) : (takeSweepSuspend s).port = s.port := by
  unfold takeSweepSuspend; (repeat' split) <;> simp
@[simp] theorem takeSweepSuspend_access (s : State) : (takeSweepSuspend s).access = s.access := by
  unfold takeSweepSuspend; (repeat' split) <;> simp

@[simp] theorem takeSweepResume_pending (s : State) : (takeSweepResume s).pending = s.pending := by
  unfold takeSweepResume; (repeat' split) <;> simp
@[simp] theorem takeSweepResume_pins (s : State) : (takeSweepResume s).pins = s.pins := by
  unfold takeSweepResume; (repeat' split) <;> simp
@[simp] theorem takeSweepResume_table (s : State) : (takeSweepResume s).table = s.table := by
  unfold takeSweepResume; (repeat' split) <;> simp
@[simp] theorem takeSweepResume_store (s : State) : (takeSweepResume s).store = s.store := by
  unfold takeSweepResume; (repeat' split) <;> simp
@[simp] theorem takeSweepResume_capture (s : State) : (takeSweepResume s).capture = s.capture := by
  unfold takeSweepResume; (repeat' split) <;> simp

@[simp] theorem takeSweepAbort_pending (s : State) : (takeSweepAbort s).pending = s.pending := by
  unfold takeSweepAbort; (repeat' split) <;> simp
@[simp] theorem takeSweepAbort_pins (s : State) : (takeSweepAbort s).pins = s.pins := by
  unfold takeSweepAbort; (repeat' split) <;> simp
@[simp] theorem takeSweepAbort_table (s : State) : (takeSweepAbort s).table = s.table := by
  unfold takeSweepAbort; (repeat' split) <;> simp
@[simp] theorem takeSweepAbort_store (s : State) : (takeSweepAbort s).store = s.store := by
  unfold takeSweepAbort; (repeat' split) <;> simp
@[simp] theorem takeSweepAbort_forward (s : State) : (takeSweepAbort s).forward = s.forward := by
  unfold takeSweepAbort; (repeat' split) <;> simp
@[simp] theorem takeSweepAbort_capture (s : State) : (takeSweepAbort s).capture = s.capture := by
  unfold takeSweepAbort; (repeat' split) <;> simp
@[simp] theorem takeSweepAbort_port (s : State) : (takeSweepAbort s).port = s.port := by
  unfold takeSweepAbort; (repeat' split) <;> simp
@[simp] theorem takeSweepAbort_access (s : State) : (takeSweepAbort s).access = s.access := by
  unfold takeSweepAbort; (repeat' split) <;> simp

/-! ## Events -/

@[simp] theorem releaseReset_pending (s : State) : (releaseReset s).pending = s.pending := by
  simp [releaseReset]
@[simp] theorem releaseReset_control (s : State) : (releaseReset s).control = s.control := by
  simp [releaseReset]
@[simp] theorem releaseReset_table (s : State) : (releaseReset s).table = s.table := by
  simp [releaseReset]
@[simp] theorem releaseReset_store (s : State) : (releaseReset s).store = s.store := by
  simp [releaseReset]
@[simp] theorem releaseReset_forward (s : State) : (releaseReset s).forward = s.forward := by
  simp [releaseReset]
@[simp] theorem releaseReset_capture (s : State) : (releaseReset s).capture = s.capture := by
  simp [releaseReset]
@[simp] theorem releaseReset_arbiter (s : State) : (releaseReset s).arbiter = s.arbiter := by
  simp [releaseReset]
@[simp] theorem releaseReset_port (s : State) : (releaseReset s).port = s.port := by
  simp [releaseReset]
@[simp] theorem releaseReset_access (s : State) : (releaseReset s).access = s.access := by
  simp [releaseReset]
@[simp] theorem releaseReset_sweep (s : State) : (releaseReset s).sweep = s.sweep := by
  simp [releaseReset]
@[simp] theorem releaseReset_link (s : State) : (releaseReset s).link = s.link := by
  simp [releaseReset]

@[simp] theorem assertFbyp_pending (s : State) : (assertFbyp s).pending = s.pending := by
  unfold assertFbyp; (repeat' split) <;> simp
@[simp] theorem assertFbyp_table (s : State) : (assertFbyp s).table = s.table := by
  unfold assertFbyp; (repeat' split) <;> simp
@[simp] theorem assertFbyp_store (s : State) : (assertFbyp s).store = s.store := by
  unfold assertFbyp; (repeat' split) <;> simp
@[simp] theorem assertFbyp_forward (s : State) : (assertFbyp s).forward = s.forward := by
  unfold assertFbyp; (repeat' split) <;> simp
@[simp] theorem assertFbyp_capture (s : State) : (assertFbyp s).capture = s.capture := by
  unfold assertFbyp; (repeat' split) <;> simp
@[simp] theorem assertFbyp_arbiter (s : State) : (assertFbyp s).arbiter = s.arbiter := by
  unfold assertFbyp; (repeat' split) <;> simp
@[simp] theorem assertFbyp_port (s : State) : (assertFbyp s).port = s.port := by
  unfold assertFbyp; (repeat' split) <;> simp
@[simp] theorem assertFbyp_access (s : State) : (assertFbyp s).access = s.access := by
  unfold assertFbyp; (repeat' split) <;> simp
@[simp] theorem assertFbyp_sweep (s : State) : (assertFbyp s).sweep = s.sweep := by
  unfold assertFbyp; (repeat' split) <;> simp
@[simp] theorem assertFbyp_link (s : State) : (assertFbyp s).link = s.link := by
  unfold assertFbyp; (repeat' split) <;> simp

@[simp] theorem presentRequest_pending (r : BusRequest) (s : State) : (presentRequest r s).pending = s.pending := by
  unfold presentRequest; (repeat' split) <;> simp
@[simp] theorem presentRequest_link (r : BusRequest) (s : State) : (presentRequest r s).link = s.link := by
  unfold presentRequest; (repeat' split) <;> simp

/-! ## The start of commands: the queue of waiting commands stays -/

@[simp] theorem runCommand_pending (c : Command) (s : State) : (runCommand c s).pending = s.pending := by
  cases c <;>
    simp only [runCommand, runNop, runPing, runPartStatus, runEngage, runDisengage, runSoftReset, runSetConfig,
      runReadConfig, runAlertStatus, runAlertAck, onSlot, runSlotStage, runSlotUnstage, runTableCommit, runTableDiscard,
      runSlotRead, runSlotState, runSlotAck, runCaptureRead, runCaptureAck, runCaptureFlush, runCaptureInfo, runReadRaw,
      runReadView, runWriteRaw, runWriteVerify, runLastAccess, runStoreRead, runStoreWrite, checkStart, runSweepCheck,
      runSweepFill, runSweepPush, runSweepSuspend, runSweepResume, runSweepAbort, runSweepStatus, unlessStarting,
      atBoundary, carry] <;>
    (repeat' split) <;> first | rfl | simp
@[simp] theorem runQueued_pending (q : QueuedCommand) (s : State) : (runQueued q s).pending = s.pending := by
  unfold runQueued; cases parseCommand q.code q.args <;> simp [runParsed]
@[simp] theorem startHead_pending (s : State) : (startHead s).pending = s.pending := by
  unfold startHead; (repeat' split) <;> simp
@[simp] theorem startNext_pending (n : Nat) (s : State) : (startNext n s).pending = s.pending := by
  induction n generalizing s with
  | zero => rfl
  | succ n ih => simp [startNext, ih]
@[simp] theorem considerNext_pending (s : State) : (considerNext s).pending = s.pending := by simp [considerNext]

@[simp] theorem sweepTimedOut_pending (b : Block) (s : State) : (sweepTimedOut b s).pending = s.pending := by
  simp [sweepTimedOut]
@[simp] theorem sweepTimedOut_pins (b : Block) (s : State) : (sweepTimedOut b s).pins = s.pins := by
  simp [sweepTimedOut]
@[simp] theorem sweepTimedOut_store (b : Block) (s : State) : (sweepTimedOut b s).store = s.store := by
  simp [sweepTimedOut]

@[simp] theorem expireTimeout_pending (s : State) : (expireTimeout s).pending = s.pending := by
  unfold expireTimeout; (repeat' split) <;> simp

@[simp] theorem timeoutEvent_pending (s : State) : (timeoutEvent s).pending = s.pending := by simp [timeoutEvent]

@[simp] theorem endMark_pending (s : State) : (endMark s).pending = s.pending := by
  simp [endMark]
@[simp] theorem endMark_control (s : State) : (endMark s).control = s.control := by
  simp [endMark]
@[simp] theorem endMark_table (s : State) : (endMark s).table = s.table := by
  simp [endMark]
@[simp] theorem endMark_store (s : State) : (endMark s).store = s.store := by
  simp [endMark]
@[simp] theorem endMark_forward (s : State) : (endMark s).forward = s.forward := by
  simp [endMark]
@[simp] theorem endMark_capture (s : State) : (endMark s).capture = s.capture := by
  simp [endMark]
@[simp] theorem endMark_arbiter (s : State) : (endMark s).arbiter = s.arbiter := by
  simp [endMark]
@[simp] theorem endMark_port (s : State) : (endMark s).port = s.port := by
  simp [endMark]
@[simp] theorem endMark_access (s : State) : (endMark s).access = s.access := by
  simp [endMark]
@[simp] theorem endMark_sweep (s : State) : (endMark s).sweep = s.sweep := by
  simp [endMark]
@[simp] theorem endMark_link (s : State) : (endMark s).link = s.link := by
  simp [endMark]

@[simp] theorem completeClear_pending (s : State) : (completeClear s).pending = s.pending := by
  unfold completeClear; (repeat' split) <;> simp
@[simp] theorem completeClear_pins (s : State) : (completeClear s).pins = s.pins := by
  unfold completeClear; (repeat' split) <;> simp
@[simp] theorem completeClear_table (s : State) : (completeClear s).table = s.table := by
  unfold completeClear; (repeat' split) <;> simp
@[simp] theorem completeClear_forward (s : State) : (completeClear s).forward = s.forward := by
  unfold completeClear; (repeat' split) <;> simp
@[simp] theorem completeClear_capture (s : State) : (completeClear s).capture = s.capture := by
  unfold completeClear; (repeat' split) <;> simp
@[simp] theorem completeClear_arbiter (s : State) : (completeClear s).arbiter = s.arbiter := by
  unfold completeClear; (repeat' split) <;> simp
@[simp] theorem completeClear_port (s : State) : (completeClear s).port = s.port := by
  unfold completeClear; (repeat' split) <;> simp
@[simp] theorem completeClear_access (s : State) : (completeClear s).access = s.access := by
  unfold completeClear; (repeat' split) <;> simp
@[simp] theorem completeClear_sweep (s : State) : (completeClear s).sweep = s.sweep := by
  unfold completeClear; (repeat' split) <;> simp
@[simp] theorem completeClear_link (s : State) : (completeClear s).link = s.link := by
  unfold completeClear; (repeat' split) <;> simp

@[simp] theorem clockClear_pending (s : State) : (clockClear s).pending = s.pending := by
  unfold clockClear; (repeat' split) <;> simp
@[simp] theorem clockClear_pins (s : State) : (clockClear s).pins = s.pins := by
  unfold clockClear; (repeat' split) <;> simp
@[simp] theorem clockClear_table (s : State) : (clockClear s).table = s.table := by
  unfold clockClear; (repeat' split) <;> simp
@[simp] theorem clockClear_forward (s : State) : (clockClear s).forward = s.forward := by
  unfold clockClear; (repeat' split) <;> simp
@[simp] theorem clockClear_capture (s : State) : (clockClear s).capture = s.capture := by
  unfold clockClear; (repeat' split) <;> simp
@[simp] theorem clockClear_arbiter (s : State) : (clockClear s).arbiter = s.arbiter := by
  unfold clockClear; (repeat' split) <;> simp
@[simp] theorem clockClear_port (s : State) : (clockClear s).port = s.port := by
  unfold clockClear; (repeat' split) <;> simp
@[simp] theorem clockClear_access (s : State) : (clockClear s).access = s.access := by
  unfold clockClear; (repeat' split) <;> simp
@[simp] theorem clockClear_sweep (s : State) : (clockClear s).sweep = s.sweep := by
  unfold clockClear; (repeat' split) <;> simp
@[simp] theorem clockClear_link (s : State) : (clockClear s).link = s.link := by
  unfold clockClear; (repeat' split) <;> simp

@[simp] theorem clockMark_pending (s : State) : (clockMark s).pending = s.pending := by
  simp [clockMark]
@[simp] theorem clockMark_control (s : State) : (clockMark s).control = s.control := by
  simp [clockMark]
@[simp] theorem clockMark_table (s : State) : (clockMark s).table = s.table := by
  simp [clockMark]
@[simp] theorem clockMark_store (s : State) : (clockMark s).store = s.store := by
  simp [clockMark]
@[simp] theorem clockMark_forward (s : State) : (clockMark s).forward = s.forward := by
  simp [clockMark]
@[simp] theorem clockMark_capture (s : State) : (clockMark s).capture = s.capture := by
  simp [clockMark]
@[simp] theorem clockMark_arbiter (s : State) : (clockMark s).arbiter = s.arbiter := by
  simp [clockMark]
@[simp] theorem clockMark_port (s : State) : (clockMark s).port = s.port := by
  simp [clockMark]
@[simp] theorem clockMark_access (s : State) : (clockMark s).access = s.access := by
  simp [clockMark]
@[simp] theorem clockMark_sweep (s : State) : (clockMark s).sweep = s.sweep := by
  simp [clockMark]
@[simp] theorem clockMark_link (s : State) : (clockMark s).link = s.link := by
  simp [clockMark]

@[simp] theorem clockTimeout_pending (s : State) : (clockTimeout s).pending = s.pending := by
  unfold clockTimeout; (repeat' split) <;> simp

@[simp] theorem clockPrescale_pending (s : State) : (clockPrescale s).pending = s.pending := by
  unfold clockPrescale; (repeat' split) <;> simp
@[simp] theorem clockPrescale_pins (s : State) : (clockPrescale s).pins = s.pins := by
  unfold clockPrescale; (repeat' split) <;> simp
@[simp] theorem clockPrescale_table (s : State) : (clockPrescale s).table = s.table := by
  unfold clockPrescale; (repeat' split) <;> simp
@[simp] theorem clockPrescale_store (s : State) : (clockPrescale s).store = s.store := by
  unfold clockPrescale; (repeat' split) <;> simp
@[simp] theorem clockPrescale_forward (s : State) : (clockPrescale s).forward = s.forward := by
  unfold clockPrescale; (repeat' split) <;> simp
@[simp] theorem clockPrescale_arbiter (s : State) : (clockPrescale s).arbiter = s.arbiter := by
  unfold clockPrescale; (repeat' split) <;> simp
@[simp] theorem clockPrescale_port (s : State) : (clockPrescale s).port = s.port := by
  unfold clockPrescale; (repeat' split) <;> simp
@[simp] theorem clockPrescale_access (s : State) : (clockPrescale s).access = s.access := by
  unfold clockPrescale; (repeat' split) <;> simp
@[simp] theorem clockPrescale_sweep (s : State) : (clockPrescale s).sweep = s.sweep := by
  unfold clockPrescale; (repeat' split) <;> simp
@[simp] theorem clockPrescale_link (s : State) : (clockPrescale s).link = s.link := by
  unfold clockPrescale; (repeat' split) <;> simp

@[simp] theorem clockHold_pending (s : State) : (clockHold s).pending = s.pending := by
  unfold clockHold; (repeat' split) <;> simp
@[simp] theorem clockHold_pins (s : State) : (clockHold s).pins = s.pins := by
  unfold clockHold; (repeat' split) <;> simp
@[simp] theorem clockHold_table (s : State) : (clockHold s).table = s.table := by
  unfold clockHold; (repeat' split) <;> simp
@[simp] theorem clockHold_store (s : State) : (clockHold s).store = s.store := by
  unfold clockHold; (repeat' split) <;> simp
@[simp] theorem clockHold_arbiter (s : State) : (clockHold s).arbiter = s.arbiter := by
  unfold clockHold; (repeat' split) <;> simp
@[simp] theorem clockHold_port (s : State) : (clockHold s).port = s.port := by
  unfold clockHold; (repeat' split) <;> simp
@[simp] theorem clockHold_access (s : State) : (clockHold s).access = s.access := by
  unfold clockHold; (repeat' split) <;> simp
@[simp] theorem clockHold_sweep (s : State) : (clockHold s).sweep = s.sweep := by
  unfold clockHold; (repeat' split) <;> simp
@[simp] theorem clockHold_link (s : State) : (clockHold s).link = s.link := by
  unfold clockHold; (repeat' split) <;> simp

@[simp] theorem busClock_pending (s : State) : (busClock s).pending = s.pending := by
  unfold busClock; (repeat' split) <;> simp

@[simp] theorem assertLsel_pending (s : State) : (assertLsel s).pending = s.pending := by
  unfold assertLsel; (repeat' split) <;> simp
@[simp] theorem assertLsel_control (s : State) : (assertLsel s).control = s.control := by
  unfold assertLsel; (repeat' split) <;> simp
@[simp] theorem assertLsel_table (s : State) : (assertLsel s).table = s.table := by
  unfold assertLsel; (repeat' split) <;> simp
@[simp] theorem assertLsel_store (s : State) : (assertLsel s).store = s.store := by
  unfold assertLsel; (repeat' split) <;> simp
@[simp] theorem assertLsel_forward (s : State) : (assertLsel s).forward = s.forward := by
  unfold assertLsel; (repeat' split) <;> simp
@[simp] theorem assertLsel_capture (s : State) : (assertLsel s).capture = s.capture := by
  unfold assertLsel; (repeat' split) <;> simp
@[simp] theorem assertLsel_arbiter (s : State) : (assertLsel s).arbiter = s.arbiter := by
  unfold assertLsel; (repeat' split) <;> simp
@[simp] theorem assertLsel_port (s : State) : (assertLsel s).port = s.port := by
  unfold assertLsel; (repeat' split) <;> simp
@[simp] theorem assertLsel_access (s : State) : (assertLsel s).access = s.access := by
  unfold assertLsel; (repeat' split) <;> simp
@[simp] theorem assertLsel_sweep (s : State) : (assertLsel s).sweep = s.sweep := by
  unfold assertLsel; (repeat' split) <;> simp

end Sys2Proof.Machine
end

