-- ==== Sys2Proof/Laws/Ops.lean ====
section
/-! SUPPORT. The shared operations, one lemma for all that each can do: causes, capture unit, giving of responses, port and grants. -/

namespace Sys2Proof.Machine

set_option Elab.async false

/-! ## Causes and the part state -/

@[simp] theorem raise_control (c : Cause) (s : State) :
    (raise c s).control = { s.control with causes := s.control.causes ||| causeBit c } := rfl

/-- The bit of a cause's own number, and no other, is in its set. -/
theorem hasCause_causeBit (c d : Cause) : hasCause (causeBit c) d = decide (c = d) := by
  cases c <;> cases d <;> decide

/-- A raise makes its cause pending and leaves every other (R179). -/
theorem hasCause_raise (c d : Cause) (s : State) :
    hasCause (raise c s).control.causes d = (hasCause s.control.causes d || decide (c = d)) := by
  rw [raise_control, ← hasCause_causeBit c d]
  simp [hasCause]

theorem checkLevel_control (s : State) :
    (checkLevel s).control =
      if levelCondition s then { s.control with causes := s.control.causes ||| causeBit .captureLevel }
      else s.control := by
  unfold checkLevel; split <;> rfl

theorem sampleFbyp_control (s : State) :
    (sampleFbyp s).control =
      if s.pins.fbyp && s.control.part == .active then
        { s.control with part := .bypass, forced := true, causes := s.control.causes ||| causeBit .forcedBypass }
      else s.control := by
  unfold sampleFbyp; split <;> rfl

/-- FBYP acts on an ACTIVE part alone. -/
theorem sampleFbyp_of_not_active {s : State} (h : s.control.part ≠ .active) : sampleFbyp s = s := by
  simp [sampleFbyp, h]

/-- An inactive FBYP does not act. -/
theorem sampleFbyp_of_released {s : State} (h : s.pins.fbyp = false) : sampleFbyp s = s := by simp [sampleFbyp, h]

/-! ## Capture unit -/

theorem admitRecord_capture (o : CaptureOffer) (s : State) :
    (admitRecord o s).capture =
      { s.capture with
        queue := s.capture.queue ++ [{ sequence := s.capture.nextSeq, offer := o, dropsBefore := s.capture.pendingDrops }]
        nextSeq := s.capture.nextSeq + 1
        pendingDrops := 0 } := by simp [admitRecord]

theorem dropRecord_capture (s : State) :
    (dropRecord s).capture =
      { s.capture with
        dropped := min (s.capture.dropped + 1) 65535
        pendingDrops := min (s.capture.pendingDrops + 1) 255 } := by simp [dropRecord]

theorem dropRecord_control (s : State) :
    (dropRecord s).control = { s.control with causes := s.control.causes ||| causeBit .captureLoss } := by
  simp [dropRecord]

theorem removeOldest_capture (n : Nat) (s : State) :
    (removeOldest n s).capture = { s.capture with queue := s.capture.queue.drop n } := by simp [removeOldest]

/-- An acknowledgement that finds its record removes between one record and all of them. -/
theorem ackCount_bounds {n : Sequence} {q : List CaptureRecord} {k : Nat} (h : ackCount n q = some k) :
    1 ≤ k ∧ k ≤ q.length := by
  unfold ackCount at h
  cases hf : q.findIdx? (fun r => r.sequence == n) with
  | none => simp [hf] at h
  | some i =>
    have := (List.findIdx?_eq_some_iff_getElem.mp hf).1
    simp [hf] at h
    omega

/-! ## Responses to the host -/

theorem giveResponse_forward (r : BusRequest) (resp : BusResponse) (s : State) :
    (giveResponse r resp s).forward =
      { s.forward with
        path := .idle
        lastAccess := some (lastAccessOf r resp s.control.timestamp)
        given := some resp } := by simp [giveResponse]

theorem giveResponse_control (r : BusRequest) (resp : BusResponse) (s : State) :
    (giveResponse r resp s).control = (sampleFbyp s).control := by
  rw [giveResponse, sampleFbyp_control, sampleFbyp_control]; rfl

theorem endHoldByDrop_of_not_held {s : State} (h : ∀ x, s.forward.path ≠ .held x) : endHoldByDrop s = s := by
  unfold endHoldByDrop
  split
  · exact absurd ‹_› (h _)
  · rfl

/-! ## Port and grants -/

@[simp] theorem issue_port (r : BusRequest) (s : State) :
    (issue r s).port =
      { s.port with outstanding := some { request := r, timeout := s.control.config.timeout, elapsed := 0 } } := rfl

@[simp] theorem issueReported_port (r : BusRequest) (s : State) : (issueReported r s).port = (issue r s).port := by
  cases r <;> simp [issueReported]

/-- A write report may set DISTURBED and changes nothing else (R145). -/
theorem reportWrite_sweep (a : Nat) (ws : List WriteWord) (s : State) :
    (reportWrite a ws s).sweep = s.sweep ∨
      (reportWrite a ws s).sweep =
        { s.sweep with record := s.sweep.record.map (fun r => { r with disturbed := true }) } := by
  unfold reportWrite; (repeat' split) <;> simp [updateRecord]

theorem issueReported_sweep (r : BusRequest) (s : State) :
    (issueReported r s).sweep = s.sweep ∨
      (issueReported r s).sweep =
        { s.sweep with record := s.sweep.record.map (fun r => { r with disturbed := true }) } := by
  cases r with
  | read a n => exact .inl (by simp [issueReported])
  | write a ws => simpa [issueReported] using reportWrite_sweep a ws (issue (.write a ws) s)

/-- At an idle port a request is granted at once; otherwise its requester joins the waiting set (R114). -/
theorem present_eq (r : Requester) (s : State) :
    present r s = if portIdle s.arbiter then grant r s else s.withArbiter (joinWaiting r s.arbiter) := rfl

/-- With nobody waiting, the freed port stays free (R114). -/
theorem freePort_of_none_waiting {s : State} (b : Bool)
    (h : s.arbiter.waitForward = false ∧ s.arbiter.waitLink = false ∧ s.arbiter.waitSweep = false) :
    freePort b s = (s.withPort { outstanding := none, aborted := b }).withArbiter { s.arbiter with owner := none } := by
  simp [freePort, decideGrant, chooseRequester, h]

/-- A requester that is chosen is in the waiting set (R115). -/
theorem chooseRequester_waits {p : Nat} {a : Arbiter} {r : Requester} (h : chooseRequester p a = some r) :
    waits a r = true := by
  unfold chooseRequester at h
  (repeat' split at h) <;> simp_all [waits] <;> subst h <;> simp_all

/-- No requester is chosen exactly when none waits (R114). -/
theorem chooseRequester_none {p : Nat} {a : Arbiter} :
    chooseRequester p a = none ↔ a.waitForward = false ∧ a.waitLink = false ∧ a.waitSweep = false := by
  unfold chooseRequester
  (repeat' split) <;> simp_all

/-- The forwarding path's grant: its request is outstanding, and the rest of the path stays. -/
theorem issueForward_forward (s : State) :
    (issueForward s).forward = match s.forward.path with
      | .waitGrant f => { s.forward with path := .outstanding f }
      | _ => s.forward := by
  unfold issueForward; split <;> simp [*]

/-- The link access unit's grant. -/
theorem issueLink_access (s : State) :
    (issueLink s).access = match s.access with
      | .waitGrant job => .outstanding job
      | a => a := by
  unfold issueLink; split <;> simp_all

/-- A grant gives the port to the requester granted (R114). -/
theorem grant_arbiter (r : Requester) (s : State) : (grant r s).arbiter = grantedTo r s.arbiter := by
  cases r <;> simp [grant]

theorem decideGrant_arbiter (s : State) :
    (decideGrant s).arbiter = match chooseRequester s.control.config.patience s.arbiter with
      | some r => grantedTo r (passOver r s.arbiter)
      | none => s.arbiter := by
  unfold decideGrant; split <;> simp [grant_arbiter, *]

/-! ## Sweep engine -/

theorem updateRecord_sweep (f : SweepRecord → SweepRecord) (s : State) :
    (updateRecord f s).sweep = { s.sweep with record := s.sweep.record.map f } := rfl

theorem endSweep_sweep (o : SweepOutcome) (s : State) :
    (endSweep o s).sweep = { state := .idle, record := s.sweep.record.map (endedRecord o), block := none } := rfl

theorem withdrawBlock_eq (s : State) :
    withdrawBlock s = (s.withSweep { s.sweep with block := none }).withArbiter
      { s.arbiter with waitSweep := false, sweepPassed := 0 } := rfl

end Sys2Proof.Machine
end

