-- ==== Sys2Proof/Laws/Link.lean ====
section
/-! SUPPORT. The link interface: the start of a command at a ready link, its completion, and the rows of link commands as one. -/

namespace Sys2Proof.Machine

set_option Elab.async false

/-! ## Entries -/

/-- The reserved entry behind held ones is the one filled (R160). -/
theorem fillReserved_append {es : List Entry} (h : es.all isHeldEntry = true) (q : Byte) (r : Response) :
    fillReserved r (es ++ [.reserved q]) = es ++ [.held r] := by
  induction es with
  | nil => rfl
  | cons e es ih =>
    cases e with
    | held x => simp only [List.cons_append, fillReserved]; rw [ih (by simp_all)]
    | reserved x => simp [isHeldEntry] at h

theorem heldResponses_append (es fs : List Entry) : heldResponses (es ++ fs) = heldResponses es ++ heldResponses fs := by
  simp [heldResponses]

/-! ## Start and completion -/

/-- The machine with the command of a ready link started (R158). -/
def startedState (q : QueuedCommand) (s : State) : State :=
  s.withLink { s.link with commands := [q], responses := s.link.responses ++ [.reserved q.seq] }

/-- At a ready link a command's row starts its command. -/
theorem submit_ready {s : State} (h : LinkReady s) (q : QueuedCommand) (run : State → State) :
    submit q run s = run (startedState q s) := by
  obtain ⟨hr, hc, he, hl, -⟩ := h
  simp only [Config.linkDepth] at hl
  simp [submit, queueFull, mayStart, startWith, enqueue, reserve, startedState, hr, hc, he, hl, Config.linkDepth]

/-- At a ready link a link command's row starts its command. -/
theorem submitCommand_ready {s : State} (h : LinkReady s) (seq : Byte) (c : Command) (run : State → State) :
    submitCommand seq c run s = run (startedState ⟨seq, commandCode c, commandArgs c⟩ s) := submit_ready h _ run

/-- While RESET is active a link command's row changes nothing. -/
theorem submit_reset {s : State} (h : s.pins.reset = true) (q : QueuedCommand) (run : State → State) :
    submit q run s = s := by simp [submit, h]

/-- At a full queue a link command's row is refused FULL. -/
theorem submit_full {s : State} (h : s.pins.reset = false) (hf : queueFull s = true) (q : QueuedCommand)
    (run : State → State) : submit q run s = refuse q.seq .full s := by simp [submit, h, hf]

/-- Behind another command, or with no entry free, a link command's row queues its command. -/
theorem submit_queued {s : State} (h : s.pins.reset = false) (hf : queueFull s = false)
    (hw : s.link.commands ≠ [] ∨ Config.linkDepth ≤ s.link.responses.length) (q : QueuedCommand) (run : State → State) :
    submit q run s = enqueue q s := by
  rcases hw with hw | hw
  · simp [submit, h, hf, hw]
  · have : ¬ s.link.responses.length < Config.linkDepth := by omega
    simp [submit, h, hf, mayStart, enqueue, this]

/-- The completion of the one command of the link, whatever its block has done: its entry is held, and the queue is
empty (R160). -/
theorem complete_started {s t : State} {q : QueuedCommand} (h : s.link.responses.all isHeldEntry = true)
    (ht : t.link = (startedState q s).link) (status : Status) (payload : List Byte) :
    complete status payload t =
      t.withLink { s.link with
        commands := []
        executing := none
        responses := s.link.responses ++ [.held ⟨q.seq, status, payload⟩] } := by
  simp only [complete, ht, startedState, State.withLink_link, fillReserved_append h]

/-- A command that its block answers at once, with no other effect, leaves a ready link with one more response. -/
theorem complete_startedState {s : State} (h : LinkReady s) (q : QueuedCommand) (status : Status) (payload : List Byte) :
    complete status payload (startedState q s) = answered q.seq status payload s := by
  obtain ⟨-, hc, he, -, ha⟩ := h
  rw [complete_started ha rfl, answered]
  simp [startedState, ← hc, ← he]

/-- A completion and the replacement of the table come in either order. -/
theorem complete_withTable (st : Status) (p : List Byte) (s : State) (t : List Slot) :
    complete st p (s.withTable t) = (complete st p s).withTable t := by
  unfold complete; split <;> simp_all [State.withTable, State.withLink]

/-- A completion and the replacement of the store come in either order. -/
theorem complete_withStore (st : Status) (p : List Byte) (s : State) (m : Store) :
    complete st p (s.withStore m) = (complete st p s).withStore m := by
  unfold complete; split <;> simp_all [State.withStore, State.withLink]

/-- A completion and the replacement of the control unit come in either order. -/
theorem complete_withControl (st : Status) (p : List Byte) (s : State) (c : Control) :
    complete st p (s.withControl c) = (complete st p s).withControl c := by
  unfold complete; split <;> simp_all [State.withControl, State.withLink]

/-- A completion and the replacement of the sweep engine come in either order. -/
theorem complete_withSweep (st : Status) (p : List Byte) (s : State) (e : SweepEngine) :
    complete st p (s.withSweep e) = (complete st p s).withSweep e := by
  unfold complete; split <;> simp_all [State.withSweep, State.withLink]

/-- A completion and the replacement of the arbiter come in either order. -/
theorem complete_withArbiter (st : Status) (p : List Byte) (s : State) (a : Arbiter) :
    complete st p (s.withArbiter a) = (complete st p s).withArbiter a := by
  unfold complete; split <;> simp_all [State.withArbiter, State.withLink]

/-- A completion and the replacement of the capture unit come in either order. -/
theorem complete_withCapture (st : Status) (p : List Byte) (s : State) (c : Capture) :
    complete st p (s.withCapture c) = (complete st p s).withCapture c := by
  unfold complete; split <;> simp_all [State.withCapture, State.withLink]

/-! ## Commands in STARTING and past it -/

theorem unlessStarting_starting {s : State} (h : s.control.part = .starting) (f : State → State) :
    unlessStarting f s = complete .starting [] s := by simp [unlessStarting, h]

theorem unlessStarting_past {s : State} (h : s.control.part ≠ .starting) (f : State → State) :
    unlessStarting f s = f s := by simp [unlessStarting, h]

@[simp] theorem startedState_units (q : QueuedCommand) (s : State) :
    (startedState q s).pending = s.pending ∧ (startedState q s).pins = s.pins ∧ (startedState q s).control = s.control ∧
      (startedState q s).table = s.table ∧ (startedState q s).store = s.store ∧ (startedState q s).forward = s.forward ∧
      (startedState q s).capture = s.capture ∧ (startedState q s).arbiter = s.arbiter ∧
      (startedState q s).port = s.port ∧ (startedState q s).access = s.access ∧ (startedState q s).sweep = s.sweep :=
  ⟨rfl, rfl, rfl, rfl, rfl, rfl, rfl, rfl, rfl, rfl, rfl⟩

@[simp] theorem startedState_control (q : QueuedCommand) (s : State) : (startedState q s).control = s.control := rfl
@[simp] theorem startedState_table (q : QueuedCommand) (s : State) : (startedState q s).table = s.table := rfl
@[simp] theorem startedState_slot (q : QueuedCommand) (s : State) (i : Nat) : (startedState q s).slot i = s.slot i := rfl
@[simp] theorem startedState_store (q : QueuedCommand) (s : State) : (startedState q s).store = s.store := rfl
@[simp] theorem startedState_forward (q : QueuedCommand) (s : State) : (startedState q s).forward = s.forward := rfl
@[simp] theorem startedState_sweep (q : QueuedCommand) (s : State) : (startedState q s).sweep = s.sweep := rfl
@[simp] theorem startedState_capture (q : QueuedCommand) (s : State) : (startedState q s).capture = s.capture := rfl
@[simp] theorem startedState_pins (q : QueuedCommand) (s : State) : (startedState q s).pins = s.pins := rfl
@[simp] theorem startedState_arbiter (q : QueuedCommand) (s : State) : (startedState q s).arbiter = s.arbiter := rfl

/-! ## The frame of a row's arm, for each unit -/

/-- What a command's row can do to the queue of waiting commands: nothing, where its block leaves it alone. -/
theorem submit_pending {q : QueuedCommand} {run : State → State} (h : ∀ t, (run t).pending = t.pending) (s : State) :
    (submit q run s).pending = s.pending := by
  unfold submit startWith
  (repeat' split) <;> simp [h]

theorem unlessStarting_pending {f : State → State} (h : ∀ t, (f t).pending = t.pending) (s : State) :
    (unlessStarting f s).pending = s.pending := by
  unfold unlessStarting; split <;> simp [h]

/-! ## The start of the next command -/

/-- Nothing starts where R158 lets nothing start. -/
theorem startHead_of_not {s : State} (h : mayStart s = false) : startHead s = s := by
  unfold startHead; split <;> simp [h]

/-- Nor does anything behind it. -/
theorem startNext_of_not (n : Nat) {s : State} (h : mayStart s = false) : startNext n s = s := by
  induction n with
  | zero => rfl
  | succ n ih => simp [startNext, startHead_of_not h, ih]

/-- Where the head may not start, the consideration changes nothing (R158). -/
theorem considerNext_of_not {s : State} (h : mayStart s = false) : considerNext s = s := startNext_of_not _ h

/-- An empty queue has nothing to start. -/
theorem considerNext_of_empty {s : State} (h : s.link.commands = []) : considerNext s = s := by
  simp [considerNext, h, startNext]

/-- With one command in the queue, its start is all there is. -/
theorem considerNext_single {s : State} {q : QueuedCommand} (h : s.link.commands = [q]) :
    considerNext s = startHead s := by simp [considerNext, h, startNext]

/-- Completed, with its command gone from the head of the queue, or executing, with the queue as it was. -/
abbrev Ran (s t : State) : Prop :=
  (t.link.executing = none ∧ t.link.commands = s.link.commands.tail) ∨
    (t.link.executing.isSome = true ∧ t.link.commands = s.link.commands)

/-- After a completion no command executes (R160). -/
theorem complete_executing (st : Status) (p : List Byte) (s : State) :
    (complete st p s).link.executing = if s.link.commands = [] then s.link.executing else none := by
  unfold complete; split <;> simp_all

/-- A completion takes the command off the head of the queue (R160). -/
theorem complete_commands (st : Status) (p : List Byte) (s : State) :
    (complete st p s).link.commands = s.link.commands.tail := by
  unfold complete; split <;> simp_all

@[simp] theorem await_executing (e : Executing) (s : State) : (await e s).link.executing = some e := rfl
@[simp] theorem await_commands (e : Executing) (s : State) : (await e s).link.commands = s.link.commands := rfl

/-- A soft reset at its boundary completes, or waits for its block (R173). -/
theorem carrySoftReset_ran {s : State} (h : s.link.commands ≠ []) : Ran s (carrySoftReset s) := by
  unfold carrySoftReset softResetChange
  (repeat' split) <;> simp [Ran, complete_executing, complete_commands, h]

/-- The same where it has just been taken, a hold ended with it (R102, R173). -/
theorem carrySoftReset_of_held_ran {s : State} (h : s.link.commands ≠ []) :
    Ran s (carrySoftReset (endHoldByDrop (await (.boundary .softReset) s))) := by
  have := carrySoftReset_ran (s := endHoldByDrop (await (.boundary .softReset) s)) (by simpa using h)
  simpa [Ran] using this

/-- A boundary command completes at its boundary, or waits for its block (R29, R173). -/
theorem carry_ran (b : BoundaryCommand) {s : State} (h : s.link.commands ≠ []) : Ran s (carry b s) := by
  cases b <;>
    simp only [carry, carryTableCommit, carrySlotState, carrySlotAck, carryStoreWrite, carryEngage, carryDisengage,
      leaveActive] <;>
    (repeat' split) <;>
    first
    | exact carrySoftReset_ran h
    | simp [Ran, complete_executing, complete_commands, h]

/-- A dispatched command completes at its start, or is the executing command from then on (R160). -/
theorem runCommand_ran (c : Command) {s : State} (h : s.link.commands ≠ []) : Ran s (runCommand c s) := by
  cases c <;>
    simp only [runCommand, runNop, runPing, runPartStatus, runEngage, runDisengage, runSoftReset, runSetConfig,
      runReadConfig, runAlertStatus, runAlertAck, onSlot, runSlotStage, runSlotUnstage, runTableCommit, runTableDiscard,
      runSlotRead, runSlotState, runSlotAck, runCaptureRead, runCaptureAck, runCaptureFlush, runCaptureInfo, runReadRaw,
      runReadView, runWriteRaw, runWriteVerify, runLastAccess, runStoreRead, runStoreWrite, checkStart, runSweepCheck,
      runSweepFill, runSweepPush, runSweepSuspend, runSweepResume, runSweepAbort, runSweepStatus, unlessStarting,
      atBoundary, takeSoftReset, carryAtIdle, ackCauses, acknowledgeRecords, flushRecords, takeReadView, proceedView,
      beginAccess, takeSweepFill, startSweep, takeSweepSuspend, takeSweepResume, takeSweepAbort] <;>
    (repeat' split) <;>
    first
    | exact carry_ran _ h
    | exact carrySoftReset_of_held_ran h
    | simp [Ran, complete_executing, complete_commands, h]

/-- A started command completes, or is the executing command from then on (R159, R160). -/
theorem runQueued_ran (q : QueuedCommand) {s : State} (h : s.link.commands ≠ []) : Ran s (runQueued q s) := by
  unfold runQueued
  cases parseCommand q.code q.args with
  | ok c => exact runCommand_ran c h
  | _ => simp [runParsed, Ran, complete_executing, complete_commands, h]

/-- While a command executes none may start (R158). -/
theorem mayStart_of_executing {s : State} (h : s.link.executing.isSome = true) : mayStart s = false := by
  cases he : s.link.executing <;> simp_all [mayStart]

/-- Enough considerations leave no command that may start. -/
theorem startNext_settles : ∀ (n : Nat) (s : State), s.link.commands.length ≤ n → mayStart (startNext n s) = false
  | 0, s, h => by
    have : s.link.commands = [] := by simpa using h
    simp [startNext, mayStart, this]
  | n + 1, s, h => by
    by_cases hm : mayStart s = true
    · cases hc : s.link.commands with
      | nil => simp [mayStart, hc] at hm
      | cons q rest =>
        have hs : startHead s = runQueued q (reserve q.seq s) := by simp [startHead, hc, hm]
        rcases runQueued_ran q (s := reserve q.seq s) (by simp [reserve, hc]) with ⟨he, hq⟩ | ⟨he, -⟩
        · refine startNext_settles n _ ?_
          rw [hs, hq]; simp [reserve, hc] at h ⊢; omega
        · rw [startNext, hs, startNext_of_not n (mayStart_of_executing he)]
          exact mayStart_of_executing he
    · have hm : mayStart s = false := by simpa using hm
      rw [startNext_of_not _ hm]; exact hm

/-- After the consideration no command that may start is left waiting (R158, R160). -/
theorem considerNext_settles (s : State) : mayStart (considerNext s) = false := startNext_settles _ s (le_refl _)

end Sys2Proof.Machine
end

