-- ==== Sys2Proof/Laws/PerInstr.lean ====
section
/-! SUPPORT. A statement about every row of the table as syntax, one lemma per constructor: a well-formed link command fits the frame that carries it. -/

namespace Sys2Proof.Laws.ArgsFit

open Sys2Proof.Machine

set_option Elab.async false

/-- The command that a well-formed row stands for has a code that R188 assigns, and arguments of at most 57 bytes, which
is what a frame of 64 bytes carries (R186). -/
def Statement (i : Instr) : Prop :=
  i.wellFormed = true → ∀ p, i.command = some p →
    (commandArgs p.2).length ≤ 57 ∧ assignedCodes.contains (commandCode p.2) = true

/-- A command whose arguments have a fixed number of bytes. -/
theorem of_length {i : Instr} {q : Byte} {c : Command} {n : Nat} (hc : i.command = some (q, c))
    (hn : (commandArgs c).length = n) (h57 : n ≤ 57) (ha : assignedCodes.contains (commandCode c) = true) :
    Statement i := by
  intro _ p hp
  rw [hc, Option.some.injEq] at hp
  subst hp
  exact ⟨hn.le.trans h57, ha⟩

theorem powerOnReset : Statement .powerOnReset := by
  intro _ p h; cases h
theorem resetRelease : Statement .resetRelease := by
  intro _ p h; cases h
theorem startupClearComplete : Statement .startupClearComplete := by
  intro _ p h; cases h
theorem fbypAssert : Statement .fbypAssert := by
  intro _ p h; cases h
theorem fbypRelease : Statement .fbypRelease := by
  intro _ p h; cases h
theorem storeUpset (offset : Nat) (data : Word) : Statement (.storeUpset offset data) := by
  intro _ p h; cases h
theorem hostRequestAccept (request : BusRequest) : Statement (.hostRequestAccept request) := by
  intro _ p h; cases h
theorem downstreamResponse (response : BusResponse) : Statement (.downstreamResponse response) := by
  intro _ p h; cases h
theorem linkAccessResponse (response : BusResponse) : Statement (.linkAccessResponse response) := by
  intro _ p h; cases h
theorem sweepBlockResponse (response : BusResponse) : Statement (.sweepBlockResponse response) := by
  intro _ p h; cases h
theorem downstreamTimeoutExpiry : Statement .downstreamTimeoutExpiry := by
  intro _ p h; cases h
theorem holdExpiry : Statement .holdExpiry := by
  intro _ p h; cases h
theorem timestampTick : Statement .timestampTick := by
  intro _ p h; cases h
theorem markPulseEnd : Statement .markPulseEnd := by
  intro _ p h; cases h
theorem lselAssert : Statement .lselAssert := by
  intro _ p h; cases h
theorem exchangeEnd (ldi : List Bool) : Statement (.exchangeEnd ldi) := by
  intro _ p h; cases h
theorem commandStart : Statement .commandStart := by
  intro _ p h; cases h
theorem unknownCommand (seq : Byte) (code : Nat) (args : List Byte) : Statement (.unknownCommand seq code args) := by
  intro _ p h; cases h
theorem boundaryCommandExecution : Statement .boundaryCommandExecution := by
  intro _ p h; cases h
theorem nop (seq : Byte) : Statement (.nop seq) :=
  of_length (n := 0) rfl (by simp [commandArgs]) (by omega) rfl
theorem ping (seq : Byte) (echo : List Byte) : Statement (.ping seq echo) := by
  intro hw p hp
  have h8 : echo.length ≤ 8 := by simpa [Instr.wellFormed, Instr.command, Command.wellFormed] using hw
  cases hp
  exact ⟨by simp only [commandArgs]; omega, rfl⟩
theorem partStatus (seq : Byte) : Statement (.partStatus seq) :=
  of_length (n := 0) rfl (by simp [commandArgs]) (by omega) rfl
theorem engage (seq : Byte) : Statement (.engage seq) :=
  of_length (n := 0) rfl (by simp [commandArgs]) (by omega) rfl
theorem disengage (seq : Byte) (force : Nat) : Statement (.disengage seq force) :=
  of_length (n := 1) rfl (by simp [commandArgs]) (by omega) rfl
theorem softReset (seq : Byte) : Statement (.softReset seq) :=
  of_length (n := 0) rfl (by simp [commandArgs]) (by omega) rfl
theorem setConfig (seq : Byte) (fields : ConfigFields) : Statement (.setConfig seq fields) :=
  of_length (n := 10) rfl (by simp [commandArgs]) (by omega) rfl
theorem readConfig (seq : Byte) : Statement (.readConfig seq) :=
  of_length (n := 0) rfl (by simp [commandArgs]) (by omega) rfl
theorem alertStatus (seq : Byte) : Statement (.alertStatus seq) :=
  of_length (n := 0) rfl (by simp [commandArgs]) (by omega) rfl
theorem alertAck (seq : Byte) (causes : Nat) : Statement (.alertAck seq causes) :=
  of_length (n := 2) rfl (by simp [commandArgs]) (by omega) rfl
theorem slotStage (seq : Byte) (slot : Nat) (fields : SlotFields) : Statement (.slotStage seq slot fields) :=
  of_length (n := 16) rfl (by simp [commandArgs]) (by omega) rfl
theorem slotUnstage (seq : Byte) (slot : Nat) : Statement (.slotUnstage seq slot) :=
  of_length (n := 1) rfl (by simp [commandArgs]) (by omega) rfl
theorem tableCommit (seq : Byte) : Statement (.tableCommit seq) :=
  of_length (n := 0) rfl (by simp [commandArgs]) (by omega) rfl
theorem tableDiscard (seq : Byte) : Statement (.tableDiscard seq) :=
  of_length (n := 0) rfl (by simp [commandArgs]) (by omega) rfl
theorem slotRead (seq : Byte) (slot : Nat) : Statement (.slotRead seq slot) :=
  of_length (n := 1) rfl (by simp [commandArgs]) (by omega) rfl
theorem slotState (seq : Byte) (slot state : Nat) : Statement (.slotState seq slot state) :=
  of_length (n := 2) rfl (by simp [commandArgs]) (by omega) rfl
theorem slotAck (seq : Byte) (slot : Nat) : Statement (.slotAck seq slot) :=
  of_length (n := 1) rfl (by simp [commandArgs]) (by omega) rfl
theorem captureRead (seq : Byte) (skip count : Nat) : Statement (.captureRead seq skip count) :=
  of_length (n := 2) rfl (by simp [commandArgs]) (by omega) rfl
theorem captureAck (seq : Byte) (sequence : Nat) : Statement (.captureAck seq sequence) :=
  of_length (n := 2) rfl (by simp [commandArgs]) (by omega) rfl
theorem captureFlush (seq : Byte) : Statement (.captureFlush seq) :=
  of_length (n := 0) rfl (by simp [commandArgs]) (by omega) rfl
theorem captureInfo (seq : Byte) : Statement (.captureInfo seq) :=
  of_length (n := 0) rfl (by simp [commandArgs]) (by omega) rfl
theorem readRaw (seq : Byte) (addr count : Nat) : Statement (.readRaw seq addr count) :=
  of_length (n := 4) rfl (by simp [commandArgs]) (by omega) rfl
theorem readView (seq : Byte) (addr count : Nat) : Statement (.readView seq addr count) :=
  of_length (n := 4) rfl (by simp [commandArgs]) (by omega) rfl
theorem writeRaw (seq : Byte) (addr : Nat) (words : List WriteWord) : Statement (.writeRaw seq addr words) := by
  intro hw p hp
  have h10 : words.length ≤ 10 := by
    have := hw; simp [Instr.wellFormed, Instr.command, Command.wellFormed] at this; exact this.2
  cases hp
  refine ⟨?_, rfl⟩
  simp only [commandArgs, List.length_append, natBytes_length, flatMap_writeWordBytes_length]; omega
theorem writeVerify (seq : Byte) (addr : Nat) (word : WriteWord) : Statement (.writeVerify seq addr word) :=
  of_length (n := 8) rfl (by simp [commandArgs]) (by omega) rfl
theorem lastAccess (seq : Byte) : Statement (.lastAccess seq) :=
  of_length (n := 0) rfl (by simp [commandArgs]) (by omega) rfl
theorem storeRead (seq : Byte) (offset count : Nat) : Statement (.storeRead seq offset count) :=
  of_length (n := 3) rfl (by simp [commandArgs]) (by omega) rfl
theorem storeWrite (seq : Byte) (offset poison : Nat) (words : List Word) : Statement (.storeWrite seq offset poison words) := by
  intro hw p hp
  have h13 : words.length ≤ 13 := by
    have := hw; simp [Instr.wellFormed, Instr.command, Command.wellFormed] at this; exact this.2
  cases hp
  refine ⟨?_, rfl⟩
  simp only [commandArgs, List.length_append, natBytes_length, flatMap_wordBytes_length]; omega
theorem sweepCheck (seq : Byte) (addr count : Nat) (expected : Option Word) : Statement (.sweepCheck seq addr count expected) := by
  cases expected with
  | none => exact of_length (n := 6) rfl (by simp [commandArgs]) (by omega) rfl
  | some w => exact of_length (n := 10) rfl (by simp [commandArgs]) (by omega) rfl
theorem sweepFill (seq : Byte) (addr count offset : Nat) : Statement (.sweepFill seq addr count offset) :=
  of_length (n := 7) rfl (by simp [commandArgs]) (by omega) rfl
theorem sweepPush (seq : Byte) (offset count addr verify : Nat) : Statement (.sweepPush seq offset count addr verify) :=
  of_length (n := 8) rfl (by simp [commandArgs]) (by omega) rfl
theorem sweepSuspend (seq : Byte) : Statement (.sweepSuspend seq) :=
  of_length (n := 0) rfl (by simp [commandArgs]) (by omega) rfl
theorem sweepResume (seq : Byte) : Statement (.sweepResume seq) :=
  of_length (n := 0) rfl (by simp [commandArgs]) (by omega) rfl
theorem sweepAbort (seq : Byte) : Statement (.sweepAbort seq) :=
  of_length (n := 0) rfl (by simp [commandArgs]) (by omega) rfl
theorem sweepStatus (seq : Byte) : Statement (.sweepStatus seq) :=
  of_length (n := 0) rfl (by simp [commandArgs]) (by omega) rfl

end Sys2Proof.Laws.ArgsFit
end

