-- ==== Sys2Proof/Laws/Store.lean ====
section
/-! SUPPORT. The patch store: reads after writes, and that every operation keeps the canonical form. -/

namespace Sys2Proof.Machine

set_option Elab.async false

/-! ## The canonical form -/

@[simp] theorem Store.wfFrom_nil (low : Nat) : Store.wfFrom low [] = true := rfl

theorem Store.wfFrom_cons {low a : Nat} {w : StoreWord} {m : Store} :
    Store.wfFrom low ((a, w) :: m) = true ↔
      low ≤ a ∧ a < Config.storeWords ∧ w ≠ clearedWord ∧ Store.wfFrom (a + 1) m = true := by
  simp [Store.wfFrom, and_assoc]

theorem Store.wfFrom_mono {low low' : Nat} {m : Store} (h : low' ≤ low) (hm : Store.wfFrom low m = true) :
    Store.wfFrom low' m = true := by
  cases m with
  | nil => rfl
  | cons e m => rw [Store.wfFrom_cons] at hm ⊢; exact ⟨by omega, hm.2⟩

/-- Below its lowest offset a store reads as cleared. -/
theorem storeRead_below {low a : Nat} {m : Store} (hm : Store.wfFrom low m = true) (h : a < low) :
    storeRead m a = clearedWord := by
  induction m generalizing low with
  | nil => rfl
  | cons e m ih =>
    rw [Store.wfFrom_cons] at hm
    rw [storeRead, if_neg (by omega)]
    exact ih hm.2.2.2 (by omega)

/-! ## One word -/

theorem wfFrom_storeInsert {low a : Nat} {m : Store} (w : StoreWord) (hm : Store.wfFrom low m = true) (hl : low ≤ a)
    (ha : a < Config.storeWords) : Store.wfFrom low (storeInsert m a w) = true := by
  induction m generalizing low with
  | nil =>
    simp only [storeInsert]
    split
    · rfl
    · rw [Store.wfFrom_cons]; exact ⟨hl, ha, ‹_›, rfl⟩
  | cons e m ih =>
    obtain ⟨b, v⟩ := e
    have hc := hm
    rw [Store.wfFrom_cons] at hc
    simp only [storeInsert]
    split
    · split
      · exact hm
      · rw [Store.wfFrom_cons]
        refine ⟨hl, ha, ‹_›, ?_⟩
        rw [Store.wfFrom_cons]; exact ⟨by omega, hc.2⟩
    · split
      · subst_vars
        split
        · exact Store.wfFrom_mono (by omega) hc.2.2.2
        · rw [Store.wfFrom_cons]; exact ⟨hl, ha, ‹_›, hc.2.2.2⟩
      · rw [Store.wfFrom_cons]; exact ⟨hc.1, hc.2.1, hc.2.2.1, ih hc.2.2.2 (by omega)⟩

theorem storeRead_storeInsert {low : Nat} {m : Store} (a b : Nat) (w : StoreWord) (hm : Store.wfFrom low m = true) :
    storeRead (storeInsert m a w) b = if b = a then w else storeRead m b := by
  induction m generalizing low with
  | nil =>
    simp only [storeInsert]
    split
    · subst_vars; split <;> rfl
    · simp only [storeRead]
  | cons e m ih =>
    obtain ⟨c, v⟩ := e
    rw [Store.wfFrom_cons] at hm
    simp only [storeInsert]
    split
    · split
      · subst_vars
        split
        · subst_vars
          exact storeRead_below (low := c) (by rw [Store.wfFrom_cons]; exact ⟨le_refl _, hm.2⟩) ‹_›
        · rfl
      · simp only [storeRead]
    · split
      · subst_vars
        split
        · subst_vars
          split
          · subst_vars; exact storeRead_below hm.2.2.2 (by omega)
          · simp [storeRead, *]
        · simp only [storeRead]; split <;> rfl
      · simp only [storeRead, ih hm.2.2.2]
        split
        · subst_vars; rw [if_neg (by omega)]
        · rfl

/-- A store word set whole keeps the canonical form. -/
theorem wf_storePut {m : Store} (a : Nat) (w : StoreWord) (hm : Store.wf m = true) :
    Store.wf (storePut m a w) = true := by
  unfold storePut
  split
  · exact wfFrom_storeInsert w hm (Nat.zero_le a) ‹_›
  · exact hm

/-- Reading after one store word is set: the word itself at its offset, every other word as before (R45). -/
theorem storeRead_storePut {m : Store} (a b : Nat) (w : StoreWord) (hm : Store.wf m = true)
    (ha : a < Config.storeWords) : storeRead (storePut m a w) b = if b = a then w else storeRead m b := by
  rw [storePut, if_pos ha, storeRead_storeInsert a b w hm]

/-- Equal contents are equal data. -/
theorem store_ext_from {low : Nat} {m n : Store} (hm : Store.wfFrom low m = true) (hn : Store.wfFrom low n = true)
    (h : ∀ a, storeRead m a = storeRead n a) : m = n := by
  induction m generalizing low n with
  | nil =>
    cases n with
    | nil => rfl
    | cons e n =>
      obtain ⟨b, v⟩ := e
      rw [Store.wfFrom_cons] at hn
      exact absurd (by simpa [storeRead] using (h b).symm) hn.2.2.1
  | cons e m ih =>
    obtain ⟨a, w⟩ := e
    have hm' := hm
    rw [Store.wfFrom_cons] at hm
    cases n with
    | nil => exact absurd (by simpa [storeRead] using h a) hm.2.2.1
    | cons e' n =>
      obtain ⟨b, v⟩ := e'
      have hn' := hn
      rw [Store.wfFrom_cons] at hn
      have hab : a = b := by
        rcases Nat.lt_trichotomy a b with hlt | heq | hgt
        · refine absurd ?_ hm.2.2.1
          have := h a
          rw [storeRead_below (m := (b, v) :: n) (low := b) (by rw [Store.wfFrom_cons]; exact ⟨le_refl _, hn.2⟩) hlt] at this
          simpa [storeRead] using this
        · exact heq
        · refine absurd ?_ hn.2.2.1
          have := h b
          rw [storeRead_below (m := (a, w) :: m) (low := a) (by rw [Store.wfFrom_cons]; exact ⟨le_refl _, hm.2⟩) hgt] at this
          simpa [storeRead] using this.symm
      subst hab
      have hwv : w = v := by simpa [storeRead] using h a
      subst hwv
      rw [ih hm.2.2.2 hn.2.2.2]
      intro c
      by_cases hc : c = a
      · subst hc
        rw [storeRead_below hm.2.2.2 (by omega), storeRead_below hn.2.2.2 (by omega)]
      · simpa [storeRead, hc] using h c

theorem store_ext {m n : Store} (hm : Store.wf m = true) (hn : Store.wf n = true)
    (h : ∀ a, storeRead m a = storeRead n a) : m = n := store_ext_from hm hn h

/-! ## Lanes and runs of words -/

theorem wf_storeWriteLanes {m : Store} (a : Nat) (l : Lanes) (d : Word) (hm : Store.wf m = true) :
    Store.wf (storeWriteLanes m a l d) = true := by
  unfold storeWriteLanes
  split
  · exact hm
  · exact wf_storePut a _ hm

/-- Reading after a write of lanes (R46): an empty set changes nothing. -/
theorem storeRead_storeWriteLanes {m : Store} (a b : Nat) (l : Lanes) (d : Word) (hm : Store.wf m = true)
    (ha : a < Config.storeWords) :
    storeRead (storeWriteLanes m a l d) b =
      if l ≠ 0 ∧ b = a then { data := mixLanes l d (storeRead m a).data, bad := false } else storeRead m b := by
  unfold storeWriteLanes
  by_cases hl : l = 0
  · rw [if_pos hl, if_neg (fun h => h.1 hl)]
  · rw [if_neg hl, storeRead_storePut a b _ hm ha]
    exact if_congr ⟨fun h => ⟨hl, h⟩, fun h => h.2⟩ rfl rfl

theorem wf_storeWriteWords {m : Store} (p : Bool) (a : Nat) (ws : List Word) (hm : Store.wf m = true) :
    Store.wf (storeWriteWords p m a ws) = true := by
  induction ws generalizing m a with
  | nil => exact hm
  | cons w ws ih => exact ih _ (wf_storePut a _ hm)

/-- Reading after a run of words is written: each word at its own offset, every other word as before (R46, R52). -/
theorem storeRead_storeWriteWords {m : Store} (p : Bool) (a b : Nat) (ws : List Word) (hm : Store.wf m = true)
    (ha : a + ws.length ≤ Config.storeWords) :
    storeRead (storeWriteWords p m a ws) b =
      if h : a ≤ b ∧ b < a + ws.length then { data := ws[b - a]'(by omega), bad := p } else storeRead m b := by
  induction ws generalizing m a with
  | nil => rw [dif_neg (by simp)]; rfl
  | cons w ws ih =>
    simp only [List.length_cons] at ha
    rw [storeWriteWords, ih (a + 1) (wf_storePut a _ hm) (by omega),
      storeRead_storePut a b _ hm (by omega)]
    by_cases h₁ : b = a
    · subst h₁
      rw [dif_neg (by omega), if_pos rfl, dif_pos (by simp)]
      simp
    · rw [if_neg h₁]
      by_cases h₂ : a + 1 ≤ b ∧ b < a + 1 + ws.length
      · rw [dif_pos h₂, dif_pos (by simp only [List.length_cons]; omega)]
        have : b - a = (b - (a + 1)) + 1 := by omega
        simp [this]
      · rw [dif_neg h₂, dif_neg (by simp only [List.length_cons]; omega)]

/-! ## The operations of State that write the store -/

theorem wf_shadowWrites (snap : List SnapSlot) (ws : List (WordDecision × WriteWord)) {s : State}
    (hs : Store.wf s.store = true) : Store.wf (shadowWrites snap ws s).store = true := by
  induction ws generalizing s with
  | nil => exact hs
  | cons p rest ih =>
    simp only [shadowWrites]
    split
    · split
      · apply ih; simpa using wf_storeWriteLanes _ _ _ hs
      · exact ih hs
    · exact ih hs

theorem wf_settleStore (r : BusRequest) (o : RequestOutcome) (d : Decided) {s : State} (hs : Store.wf s.store = true) :
    Store.wf (settleStore r o d s).store = true := by
  unfold settleStore
  split
  · exact wf_shadowWrites _ _ hs
  · exact hs

theorem wf_settleUnits (r : BusRequest) (d : Decided) (o : RequestOutcome) {s : State}
    (hs : Store.wf s.store = true) : Store.wf (settleUnits r d o s).store = true :=
  wf_settleStore _ _ _ (by simpa using hs)

@[simp] theorem settle_store (r : BusRequest) (d : Decided) (o : RequestOutcome) (resp : BusResponse) (s : State) :
    (settle r d o resp s).store = (settleUnits r d o s).store := by
  unfold settle; split <;> simp

theorem wf_settle (r : BusRequest) (d : Decided) (o : RequestOutcome) (resp : BusResponse) {s : State}
    (hs : Store.wf s.store = true) : Store.wf (settle r d o resp s).store = true := by
  simpa using wf_settleUnits r d o hs

theorem wf_carryStoreWrite (o : Nat) (p : Bool) (ws : List Word) {s : State} (hs : Store.wf s.store = true) :
    Store.wf (carryStoreWrite o p ws s).store = true := by
  unfold carryStoreWrite
  split
  · simpa using hs
  · simpa using wf_storeWriteWords p o ws hs

theorem wf_blockAnswered (r : SweepRecord) (b : Block) (data : List Word) {s : State} (hs : Store.wf s.store = true) :
    Store.wf (blockAnswered r b data s).store = true := by
  unfold blockAnswered
  split <;> simp [hs, wf_storeWriteWords]

theorem wf_finishClear (s : State) : Store.wf (finishClear s).store = true := by
  simp [finishClear]

theorem wf_clockClear {s : State} (hs : Store.wf s.store = true) : Store.wf (clockClear s).store = true := by
  unfold clockClear
  split
  · exact hs
  · split
    · simpa using wf_storePut _ _ hs
    · exact wf_finishClear s

/-- The store of the state after reset is canonical. -/
theorem wf_reset : Store.wf State.reset.store = true := rfl

end Sys2Proof.Machine
end

