-- ==== Sys2Proof/Tests/Slice0.lean ====
section
/-! SUPPORT. Tests of the BX216 model: ill-formed terms refused, small steps with results taken from the spec, and for each statement of Certificates/Slice0 a state that meets its hypotheses. -/

namespace Sys2Proof.Tests

open Sys2Proof.Machine

set_option Elab.async false
set_option maxRecDepth 8000

/-! ## Small machines -/

/-- The part in BYPASS, the start-up clear complete. -/
def bypass : State := { State.reset with control := { resetControl with part := .bypass, clear := .complete } }

/-- The part in ACTIVE. -/
def active : State := { bypass with control := { bypass.control with part := .active } }

/-- RESET active. -/
def inReset : State := { State.reset with pins := { State.reset.pins with reset := true } }

/-- A slot with a configuration, LIVE, as just committed. -/
def liveSlot (c : SlotConfig) : Slot := { resetSlot with active := c, status := clearedStatus .live }

/-- The machine with some slots in place. -/
def withSlots (slots : List (Nat × Slot)) (s : State) : State :=
  { s with table := slots.foldl (fun t p => t.set p.1 p.2) s.table }

/-- The machine with its control unit's configuration changed. -/
def configured (f : ConfigSet → ConfigSet) (s : State) : State :=
  { s with control := { s.control with config := f s.control.config } }

/-- What one step leaves when the command is taken from the queue. -/
def after (c : Instr) (s : State) : Option State :=
  match step { s with pending := [c] } with
  | .next t => some t
  | _ => none

/-- The status and payload of the newest held response after a command. -/
def answer (c : Instr) (s : State) : Option (Status × List Byte) :=
  match (after c s).bind (·.link.responses.getLast?) with
  | some (.held r) => some (r.status, r.payload)
  | _ => none

/-- The slots of the example of 02: PATCH 2, WATCH 7, GUARD 9. -/
def exampleTable : List (Nat × Slot) :=
  [(2, liveSlot { resetConfig with mode := .patch, k := 1, base := 0x3000, offset := 0x100, lanes := 3 }),
   (7, liveSlot { resetConfig with k := 3, base := 0x3000, kinds := 0, capture := true }),
   (9, liveSlot { resetConfig with mode := .guard, k := 1, base := 0x3006, kinds := 1 })]

/-- The machine of the example of 02. -/
def example02 : State :=
  withSlots exampleTable { active with store := [(0x100, ⟨0xBEEF, false⟩), (0x101, ⟨0xCAFE, false⟩)] }

/-- The same after request A has gone downstream. -/
def example02A : State := (after (.hostRequestAccept (.read 0x3000 4)) example02).getD example02

/-- A request for a word that the PATCH slot 2 alone decides, with no capture flag. -/
def example02P : State :=
  (after (.hostRequestAccept (.read 0x3000 1)) (withSlots (exampleTable.take 1) active)).getD active

/-- The machine of the example of 04. -/
def example04 : State :=
  withSlots
    [(8, liveSlot { resetConfig with mode := .guard, k := 1, base := 0x6006, kinds := 1 }),
     (11, liveSlot { resetConfig with mode := .shadow, k := 2, base := 0x6000, offset := 0x300 }),
     (14, liveSlot { resetConfig with k := 3, base := 0x6000, kinds := 1, capture := true })]
    { active with store := [(0x300, ⟨0x12340000, false⟩), (0x301, ⟨0x12340001, false⟩), (0x302, ⟨0x12340002, false⟩),
                            (0x303, ⟨0x12340003, false⟩)] }

/-- A capture offer of a write to 7004h. -/
def offer : CaptureOffer :=
  { timestamp := 0, kind := .write, addr := 0x7004, len := 1, outcome := .okay, patched := false, shadowed := false,
    slots := [6], keyAddr := 0x7004, keyData := some 0, keyLanes := some 0xF#4 }

/-- A capture queue from sequence 100 on. -/
def queueOf (n : Nat) : List CaptureRecord := (List.range n).map (fun i => ⟨BitVec.ofNat 16 (100 + i), offer, 0⟩)

/-- The machine with `n` capture records and the WATCH slot of the example of 06. -/
def captured (n : Nat) : State :=
  withSlots [(6, liveSlot { resetConfig with k := 3, base := 0x7000, kinds := 1, capture := true })]
    { active with
      capture := { queue := queueOf n, nextSeq := BitVec.ofNat 16 (100 + n), dropped := 0, pendingDrops := 0, held := none }
      control := { active.control with causes := causeBit .captureLevel } }

/-- A host write of one word, all lanes. -/
def write1 (a : Nat) (w : Word) : BusRequest := .write a [⟨w, 0xF#4⟩]

/-- The full queue with a held offer. -/
def holding : State :=
  { captured 64 with
    forward := { active.forward with path := .held ⟨write1 0x7000 0, .okay []⟩ }
    capture := { (captured 64).capture with held := some ⟨offer, 1000⟩ } }

/-- A host request outstanding, forwarded unchanged. -/
def outstanding : State := (after (.hostRequestAccept (.read 0x20 2)) bypass).getD bypass

/-- A record of a sweep. -/
def sweepRecord (start count done : Nat) (w : SweepWork) : SweepRecord :=
  { start := start, count := count, done := done, outcome := .pending, fail := none, disturbed := false, work := w }

/-- A running sweep with its block's access outstanding at the port. -/
def sweeping (r : SweepRecord) (b : Block) (s : State) : State :=
  { s with
    sweep := { state := .running, record := some r, block := some b }
    arbiter := { s.arbiter with owner := some .sweep }
    port := { outstanding := (sweepRequest r b).bind (fun q => issued q s), aborted := false } }

/-- A suspended sweep. -/
def suspended (r : SweepRecord) (s : State) : State :=
  { s with sweep := { state := .suspended, record := some r, block := none } }

/-- A running sweep whose block waits behind a host request. -/
def waitingSweep : State :=
  { outstanding with
    sweep := { state := .running, record := some (sweepRecord 8 20 0 (.check none 0 none)),
               block := some ⟨8, 8, [], .waiting⟩ }
    arbiter := { outstanding.arbiter with waitSweep := true, sweepPassed := 1 } }

/-- A running sweep whose block waits while the path is IDLE: the link access unit holds the port. -/
def waitingSweepIdle : State :=
  { bypass with
    sweep := { state := .running, record := some (sweepRecord 8 20 0 (.check none 0 none)),
               block := some ⟨8, 8, [], .waiting⟩ }
    arbiter := { bypass.arbiter with owner := some .link, waitSweep := true, sweepPassed := 1 } }

/-- A FILL of 8 words to offset 200h, suspended. -/
def filling (s : State) : State := suspended (sweepRecord 0x1000 8 0 (.fill 0x200 false)) s

/-- The memory command started at a ready link. -/
def accessing (c : Instr) : State := (after c bypass).getD bypass

/-- A PING waits for an entry behind four held responses, and an exchange that delivers the oldest is in progress. -/
def blocked : State :=
  { bypass with
    link := { resetLink with
      commands := [⟨5, 1, []⟩, ⟨6, 0, []⟩]
      responses := [.held ⟨1, .ok, []⟩, .held ⟨2, .ok, []⟩, .held ⟨3, .ok, []⟩, .held ⟨4, .ok, []⟩]
      lastSent := .response
      exchange := some ⟨.response, outboundFrame 1 .ok [] [], 0, []⟩ } }

/-- A NOP frame of sequence 7 that acknowledges sequence 1. -/
def ackFrame : List Bool := frameBits 7 1 1 .nop

/-! ## Ill-formed terms are refused (one for each check) -/

theorem test_wf_upset_offset : (Instr.storeUpset 4096 0).wellFormed = false := by decide
theorem test_wf_request_address : (Instr.hostRequestAccept (.read 4194304 1)).wellFormed = false := by decide
theorem test_wf_request_empty : (Instr.hostRequestAccept (.read 0 0)).wellFormed = false := by decide
theorem test_wf_request_long : (Instr.hostRequestAccept (.read 0 9)).wellFormed = false := by decide
theorem test_wf_write_address : (Instr.hostRequestAccept (write1 4194304 0)).wellFormed = false := by decide
theorem test_wf_write_empty : (Instr.hostRequestAccept (.write 0 [])).wellFormed = false := by decide
theorem test_wf_write_long : (Instr.hostRequestAccept (.write 0 (List.replicate 9 ⟨0, 0⟩))).wellFormed = false := by decide
theorem test_wf_response : (Instr.downstreamResponse (.okay (List.replicate 9 0))).wellFormed = false ∧
    (Instr.linkAccessResponse (.okay (List.replicate 9 0))).wellFormed = false ∧
    (Instr.sweepBlockResponse (.okay (List.replicate 9 0))).wellFormed = false := by decide
theorem test_wf_unknown_code : (Instr.unknownCommand 0 256 []).wellFormed = false ∧
    (Instr.unknownCommand 0 0x46 []).wellFormed = false ∧
    (Instr.unknownCommand 0 0x47 (List.replicate 58 0)).wellFormed = false := by decide
theorem test_wf_ping : (Instr.ping 0 (List.replicate 9 0)).wellFormed = false := by decide
theorem test_wf_disengage : (Instr.disengage 0 256).wellFormed = false := by decide
theorem test_wf_set_config : (Instr.setConfig 0 ⟨256, 1, 0, 0, 1, 1, 0⟩).wellFormed = false ∧
    (Instr.setConfig 0 ⟨0, 65536, 0, 0, 1, 1, 0⟩).wellFormed = false ∧
    (Instr.setConfig 0 ⟨0, 1, 256, 0, 1, 1, 0⟩).wellFormed = false ∧
    (Instr.setConfig 0 ⟨0, 1, 0, 256, 1, 1, 0⟩).wellFormed = false ∧
    (Instr.setConfig 0 ⟨0, 1, 0, 0, 65536, 1, 0⟩).wellFormed = false ∧
    (Instr.setConfig 0 ⟨0, 1, 0, 0, 1, 256, 0⟩).wellFormed = false ∧
    (Instr.setConfig 0 ⟨0, 1, 0, 0, 1, 1, 65536⟩).wellFormed = false := by decide
theorem test_wf_alert_ack : (Instr.alertAck 0 65536).wellFormed = false := by decide

/-- A slot configuration's fields with everything 0. -/
def zeroFields : SlotFields :=
  { mode := 0, k := 0, base := 0, kinds := 0, offset := 0, lanes := 0, limit := 0, action := 0, link := 0,
    capture := false, alert := false, mark := false, initial := 0 }

theorem test_wf_slot_stage : (Instr.slotStage 0 256 zeroFields).wellFormed = false ∧
    (Instr.slotStage 0 0 { zeroFields with mode := 256 }).wellFormed = false ∧
    (Instr.slotStage 0 0 { zeroFields with k := 256 }).wellFormed = false ∧
    (Instr.slotStage 0 0 { zeroFields with base := 16777216 }).wellFormed = false ∧
    (Instr.slotStage 0 0 { zeroFields with kinds := 256 }).wellFormed = false ∧
    (Instr.slotStage 0 0 { zeroFields with offset := 65536 }).wellFormed = false ∧
    (Instr.slotStage 0 0 { zeroFields with limit := 65536 }).wellFormed = false ∧
    (Instr.slotStage 0 0 { zeroFields with action := 256 }).wellFormed = false ∧
    (Instr.slotStage 0 0 { zeroFields with link := 256 }).wellFormed = false ∧
    (Instr.slotStage 0 0 { zeroFields with initial := 256 }).wellFormed = false := by decide
theorem test_wf_slot_number : (Instr.slotUnstage 0 256).wellFormed = false ∧ (Instr.slotRead 0 256).wellFormed = false ∧
    (Instr.slotState 0 256 0).wellFormed = false ∧ (Instr.slotState 0 0 256).wellFormed = false ∧
    (Instr.slotAck 0 256).wellFormed = false := by decide
theorem test_wf_capture : (Instr.captureRead 0 256 1).wellFormed = false ∧ (Instr.captureRead 0 0 256).wellFormed = false ∧
    (Instr.captureAck 0 65536).wellFormed = false := by decide
theorem test_wf_access : (Instr.readRaw 0 16777216 1).wellFormed = false ∧ (Instr.readRaw 0 0 256).wellFormed = false ∧
    (Instr.readView 0 16777216 1).wellFormed = false ∧ (Instr.readView 0 0 256).wellFormed = false ∧
    (Instr.writeRaw 0 16777216 []).wellFormed = false ∧ (Instr.writeRaw 0 0 (List.replicate 11 ⟨0, 0⟩)).wellFormed = false ∧
    (Instr.writeVerify 0 16777216 ⟨0, 0⟩).wellFormed = false := by decide
theorem test_wf_store : (Instr.storeRead 0 65536 1).wellFormed = false ∧ (Instr.storeRead 0 0 256).wellFormed = false ∧
    (Instr.storeWrite 0 65536 0 []).wellFormed = false ∧ (Instr.storeWrite 0 0 256 []).wellFormed = false ∧
    (Instr.storeWrite 0 0 0 (List.replicate 14 0)).wellFormed = false := by decide
theorem test_wf_sweep : (Instr.sweepCheck 0 16777216 1 none).wellFormed = false ∧
    (Instr.sweepCheck 0 0 16777216 none).wellFormed = false ∧ (Instr.sweepFill 0 16777216 1 0).wellFormed = false ∧
    (Instr.sweepFill 0 0 65536 0).wellFormed = false ∧ (Instr.sweepFill 0 0 1 65536).wellFormed = false ∧
    (Instr.sweepPush 0 65536 1 0 0).wellFormed = false ∧ (Instr.sweepPush 0 0 65536 0 0).wellFormed = false ∧
    (Instr.sweepPush 0 0 1 16777216 0).wellFormed = false ∧ (Instr.sweepPush 0 0 1 0 256).wellFormed = false := by decide

/-! ## The two CRCs (check values of R186 and R131) -/

theorem test_crc16 : crc16 [0x31, 0x32, 0x33, 0x34, 0x35, 0x36, 0x37, 0x38, 0x39] = 0x29B1#16 := by decide
theorem test_crc32 : crc32Fold 0 [0x34333231] = 0x9BE3E0A3#32 := by decide
theorem test_crc32_zero : crc32Fold 0 [0] = 0x2144DF1C#32 := by decide

/-! ## The table of commands gives no bits -/

theorem test_no_word_spells_a_command : Sys2Proof.decodeTableWord 8 0 = none := by decide
theorem test_fetch_word_changes_nothing : State.reset.withFetchWord 8 0 = State.reset := by decide

/-! ## Lines, time and upsets -/

/-- R168: RESET abandons an outstanding request by abort and starts anew. -/
theorem test_power_on : (after .powerOnReset outstanding).map (fun t =>
    (t.pins.reset, t.control.part, t.port.aborted, t.port.outstanding, t.forward.path)) =
    some (true, .starting, true, none, .idle) := by decide
theorem test_reset_release : (after .resetRelease inReset).map (·.pins.reset) = some false := by decide
/-- 10, example, step 2. -/
theorem test_startup_clear : (after .startupClearComplete State.reset).map (fun t =>
    (t.control.part, t.control.clear, hasCause t.control.causes .started, t.alert)) =
    some (.bypass, .complete, true, false) := by decide
/-- R172. -/
theorem test_fbyp_idle : (after .fbypAssert active).map (fun t => (t.control.part, t.control.forced, t.control.causes)) =
    some (.bypass, true, 0x1000#14) := by decide
/-- R30: the level does not act while a request is in flight. -/
theorem test_fbyp_in_flight : (after .fbypAssert example02A).map (fun t => (t.pins.fbyp, t.control.part)) =
    some (true, .active) := by decide
theorem test_fbyp_release : (after .fbypRelease { bypass with pins := { bypass.pins with fbyp := true } }).map
    (fun t => (t.pins.fbyp, t.control.part)) = some (false, .bypass) := by decide
theorem test_upset_last_word : (after (.storeUpset 4095 5) bypass).map (fun t => storeRead t.store 4095) =
    some ⟨5, true⟩ := by decide
theorem test_upset_outside : after (.storeUpset 4096 5) bypass = none := by decide
/-- R178: the counter wraps to 0. -/
theorem test_tick_wraps : (after .timestampTick { bypass with
    control := { bypass.control with timestamp := 0xFFFFFFFF, prescaleCount := 3 } }).map
    (fun t => (t.control.timestamp, t.control.prescaleCount)) = some (0, 0) := by decide
theorem test_mark_end : (after .markPulseEnd { bypass with pins := { bypass.pins with markLeft := 4 } }).map State.mark =
    some false := by decide
/-- R101: expiry gives the held response and drops the record. -/
theorem test_hold_expiry : (after .holdExpiry holding).map (fun t =>
    (t.forward.path, t.forward.given, t.capture.dropped, t.capture.held, t.capture.queue.length)) =
    some (.idle, some (.okay []), 1, none, 64) := by decide
/-- 02, example, request D: a READ ended by the timeout is answered ERROR. -/
theorem test_timeout : (after .downstreamTimeoutExpiry example02A).map (fun t =>
    (t.forward.given, t.port.aborted, t.port.outstanding, hasCause t.control.causes .downTimeout)) =
    some (some .error, true, none, true) := by decide
theorem test_idle_clock : (match step { bypass with control := { bypass.control with timestamp := 41 } } with
    | .next t => some t.control.timestamp
    | _ => none) = some 42 := by decide

/-! ## Host requests -/

/-- 02, example, request A: slot 2's words need memory, so the whole READ goes downstream. -/
theorem test_read_goes_downstream : example02A.port.outstanding.map (·.request) = some (.read 0x3000 4) := by decide
/-- 02, example, request B: refused by GUARD. -/
theorem test_guarded_write : (after (.hostRequestAccept (.write 0x3005 [⟨1, 0xF#4⟩, ⟨2, 0xF#4⟩])) example02).map (fun t =>
    (t.forward.given, t.port.outstanding, (t.slot 9).status.count, (t.slot 7).status.count)) =
    some (some .error, none, 1, 0) := by decide
/-- 02, example, request A settled: lanes 0 and 1 from the store, the others from memory. -/
theorem test_lanes_from_store : (after (.downstreamResponse (.okay [0x11112222, 0x33334444, 0x55556666, 0x77778888]))
    example02A).map (fun t => (t.forward.given, (t.slot 2).status.count, (t.slot 7).status.count, t.capture.queue.length)) =
    some (some (.okay [0x1111BEEF, 0x3333CAFE, 0x55556666, 0x77778888]), 1, 1, 1) := by decide
/-- 04, example, step 1: shadowed words go to the store, nothing goes downstream. -/
theorem test_shadowed_write : (after (.hostRequestAccept (.write 0x6000 [⟨0xAAAA5555, 0xF#4⟩, ⟨0xBBBB6666, 3⟩]))
    example04).map (fun t => (t.forward.given, storeRead t.store 0x300, storeRead t.store 0x301, t.port.outstanding)) =
    some (some (.okay []), ⟨0xAAAA5555, false⟩, ⟨0x12346666, false⟩, none) := by decide

/-! ## Link machinery -/

/-- R152: the empty frame's length, echo, status and flags. -/
theorem test_empty_frame : (after .lselAssert bypass).map (fun t => t.link.exchange.map (·.frame.take 4)) =
    some (some [0x06, 0x00, 0xFF, 0x04]) := by decide
/-- 09, example, exchange 4: a damaged frame is refused CHECK_FAIL with its sequence echo. -/
theorem test_damaged_frame : (after (.exchangeEnd (bytesBits [0x0A, 0x13, 0, 0, 0x38, 0, 0, 1, 0, 0]))
    ((after .lselAssert bypass).getD bypass)).map (fun t => (t.link.refusal, t.control.causes)) =
    some (some ⟨0x13, .checkFail, false⟩, 0x2000#14) := by decide
theorem test_command_start : (answer .commandStart { bypass with link := { resetLink with commands := [⟨7, 0, []⟩] } }) =
    some (.ok, []) := by decide
/-- 09, example, exchange 4: SLOT_ACK starts and completes when the READ_RAW before it has completed. -/
theorem test_next_command_starts : (after (.linkAccessResponse (.okay (List.replicate 8 0)))
    { accessing (.readRaw 0x11 0x5000 8) with
      link := { (accessing (.readRaw 0x11 0x5000 8)).link with
        commands := (accessing (.readRaw 0x11 0x5000 8)).link.commands ++ [⟨0x12, commandCode (.slotAck 0), [0]⟩] } }).map
    (fun t => (t.link.commands, t.link.executing, t.link.responses.map isHeldEntry)) =
    some ([], none, [true, true]) := by decide
/-- R156: the acknowledgement that frees an entry starts the command that waited for it, and that one alone. -/
theorem test_acknowledgement_starts_the_head : (after (.exchangeEnd ackFrame) blocked).map
    (fun t => (t.link.commands.map (·.seq), t.link.responses.getLast?)) =
    some ([6, 7], some (.held ⟨5, .ok, [0xB2, 0x16, 0x01]⟩)) := by decide
theorem test_unknown_code : answer (.unknownCommand 9 0xFF []) State.reset = some (.unknown, []) := by decide
/-- 02, example, request D: the waiting commit is carried out at the boundary. -/
theorem test_boundary_commit : answer .boundaryCommandExecution { bypass with
    link := waitingLink 5 .tableCommit (.boundary .tableCommit) bypass.link } = some (.ok, [0]) := by decide

/-! ## Link commands -/

theorem test_nop : answer (.nop 1) State.reset = some (.ok, []) := by decide
theorem test_ping : answer (.ping 1 [0xAA, 0x55]) State.reset = some (.ok, [0xB2, 0x16, 0x01, 0xAA, 0x55]) := by decide
/-- 10, example, step 1. -/
theorem test_part_status : answer (.partStatus 1) State.reset = some (.ok, [0, 0, 0, 0, 0]) := by decide
theorem test_engage : (after (.engage 1) { bypass with control := { bypass.control with forced := true } }).map
    (fun t => (t.control.part, t.control.forced)) = some (.active, false) := by decide
theorem test_engage_pinned : answer (.engage 1) { bypass with pins := { bypass.pins with fbyp := true } } =
    some (.pinned, []) := by decide
/-- 04, example, step 5. -/
theorem test_disengage : answer (.disengage 1 0) example04 = some (.shadowLive, [11]) := by decide
theorem test_disengage_force : (after (.disengage 1 1) example04).map (·.control.part) = some .bypass := by decide
theorem test_soft_reset : (after (.softReset 1) (captured 63)).map (fun t =>
    (t.control.part, t.capture.queue.length, t.control.causes, (t.slot 6).status.state)) =
    some (.bypass, 0, 0, .idle) := by decide
/-- 10, example, step 3. -/
theorem test_set_config : (after (.setConfig 1 ⟨0, 256, 8, 0, 1000, 48, 0x1021⟩)
    { bypass with control := { bypass.control with causes := 1 } }).map (fun t => (t.control.config.enable, t.alert)) =
    some (0x1021#14, true) := by decide
theorem test_set_config_range : answer (.setConfig 1 ⟨0, 0, 8, 0, 1000, 48, 0⟩) bypass = some (.range, []) := by decide
/-- R175's defaults in R188's layout. -/
theorem test_read_config : answer (.readConfig 1) bypass = some (.ok, [0, 1, 0, 8, 0, 3, 0xE8, 48, 0, 0]) := by decide
theorem test_alert_status : answer (.alertStatus 1) (captured 1) = some (.ok, [0, 2, 0, 0, 0, 0, 0, 0, 0, 0]) := by decide
/-- R110: CAPTURE_LEVEL stays while its condition holds. -/
theorem test_alert_ack : answer (.alertAck 1 0x3FFF) (captured 63) = some (.ok, [0, 2]) := by decide
theorem test_slot_stage : (after (.slotStage 1 23 { zeroFields with k := 3, base := 0x10 }) bypass).map (fun t =>
    ((t.slot 23).dirty, (t.slot 23).staged.base, (t.slot 23).active.base)) = some (true, 0x10, 0) := by decide
theorem test_slot_stage_misaligned : answer (.slotStage 1 0 { zeroFields with k := 3, base := 0x14 }) bypass =
    some (.misaligned, []) := by decide
theorem test_slot_unstage : (after (.slotUnstage 1 4) (withSlots [(4, { resetSlot with dirty := true })] bypass)).map
    (fun t => (t.slot 4).dirty) = some false := by decide
theorem test_table_commit : (after (.tableCommit 1)
    (withSlots [(4, { resetSlot with dirty := true, staged := { resetConfig with initial := .live } })] bypass)).map
    (fun t => ((t.slot 4).status.state, (t.slot 4).dirty, (t.slot 5).status.state)) = some (.live, false, .idle) := by decide
theorem test_table_discard : (after (.tableDiscard 1)
    (withSlots [(4, { resetSlot with dirty := true, staged := { resetConfig with base := 9 } })] bypass)).map
    (fun t => ((t.slot 4).staged.base, (t.slot 4).dirty)) = some (0, false) := by decide
theorem test_slot_read : (answer (.slotRead 1 2) example02).map (fun p => (p.1, p.2.length, (p.2.drop 16).take 15)) =
    some (.ok, 53, [1, 1, 0, 0x30, 0, 2, 1, 0, 3, 0, 0, 0, 0, 0, 0]) := by decide
/-- 03, example, step 6: naming LIVE sets the count to 0 and keeps the flags. -/
theorem test_slot_state : (after (.slotState 1 3 2) (withSlots [(3, { liveSlot resetConfig with
      status := { clearedStatus .spent with count := 2, hit := true, lost := true } })] bypass)).map
    (fun t => ((t.slot 3).status.state, (t.slot 3).status.count, (t.slot 3).status.lost)) = some (.live, 0, true) := by decide
theorem test_slot_ack : answer (.slotAck 1 3) (withSlots [(3, { liveSlot resetConfig with
    status := { clearedStatus .live with hit := true, storeFault := true } })] bypass) = some (.ok, [9]) := by decide
/-- 06, example, step 9's shape: two records in 51 bytes. -/
theorem test_capture_read : (answer (.captureRead 1 62 2) (captured 63)).map (fun p => (p.1, p.2.length, p.2.take 3)) =
    some (.ok, 26, [1, 0, 162]) := by decide
/-- 06, example, step 4. -/
theorem test_capture_ack : (after (.captureAck 1 101) (captured 64)).map (fun t =>
    (t.link.responses, t.capture.queue.head?.map (·.sequence))) =
    some ([.held ⟨1, .ok, [2, 62]⟩], some 102) := by decide
/-- 06, example, step 10: the hold ends by space. -/
theorem test_capture_ack_ends_hold : (after (.captureAck 1 108) holding).map (fun t =>
    (t.link.responses, t.capture.queue.length, t.forward.given, t.capture.held)) =
    some ([.held ⟨1, .ok, [9, 55]⟩], 56, some (.okay []), none) := by decide
theorem test_capture_flush : answer (.captureFlush 1) (captured 64) = some (.ok, [64]) := by decide
theorem test_capture_info : answer (.captureInfo 1) (captured 63) = some (.ok, [63, 0, 163, 0, 0, 0]) := by decide
theorem test_read_raw : (after (.readRaw 1 0x5000 8) bypass).map (fun t => t.port.outstanding.map (·.request)) =
    some (some (.read 0x5000 8)) := by decide
/-- R125: a view wholly from the store needs no memory. -/
theorem test_read_view : answer (.readView 1 0x6000 2) example04 =
    some (.ok, [0, 1, 0x12, 0x34, 0, 0, 1, 0x12, 0x34, 0, 1]) := by decide
theorem test_write_raw : (after (.writeRaw 1 0x10 [⟨5, 1⟩]) bypass).map (fun t => t.port.outstanding.map (·.request)) =
    some (some (.write 0x10 [⟨5, 1⟩])) := by decide
theorem test_write_verify : (after (.writeVerify 1 0x5003 ⟨0xABCD, 3⟩) bypass).map
    (fun t => t.port.outstanding.map (·.request)) = some (some (.read 0x5003 1)) := by decide
/-- 07, example, step 2: the mismatch bits lie within the lanes written. -/
theorem test_write_verify_mismatch : answer (.linkAccessResponse (.okay [0x1234ABCF]))
    { accessing (.writeVerify 1 0x5003 ⟨0xABCD, 3⟩) with
      access := .outstanding (.writeVerify 0x5003 ⟨0xABCD, 3⟩ (.readBack 0x12340003)) } =
    some (.ok, [0x12, 0x34, 0, 3, 0x12, 0x34, 0xAB, 0xCF, 0, 0, 0, 2]) := by decide
theorem test_last_access_absent : answer (.lastAccess 1) bypass = some (.ok, List.replicate 16 0) := by decide
/-- 03, example, step 3's shape: the second word is bad. -/
theorem test_store_read : answer (.storeRead 1 0x200 2) { bypass with store := [(0x200, ⟨0x10, false⟩), (0x201, ⟨0xEEEE, true⟩)] } =
    some (.ok, [0, 2, 0, 0, 0, 0x10, 0, 0, 0xEE, 0xEE]) := by decide
/-- 03, example, step 2. -/
theorem test_store_write : (after (.storeWrite 1 0x201 1 [0xEEEE]) bypass).map (fun t => storeRead t.store 0x201) =
    some ⟨0xEEEE, true⟩ := by decide
theorem test_sweep_check : (after (.sweepCheck 1 0 4194304 none) bypass).map (fun t =>
    (t.sweep.state, t.port.outstanding.map (·.request))) = some (.running, some (.read 0 8)) := by decide
/-- 08, example, step 1: the first block runs to the end of its aligned block. -/
theorem test_sweep_fill : (after (.sweepFill 1 0x1005 20 0x200) bypass).map (fun t =>
    (t.sweep.block.map (fun b => (b.addr, b.count)), t.port.outstanding.map (·.request))) =
    some (some (0x1005, 3), some (.read 0x1005 3)) := by decide
/-- 08, second example, step 1: a bad word fails the sweep before anything is presented. -/
theorem test_sweep_push_bad_word : (after (.sweepPush 1 0x300 10 0x3FF8 1) { active with store := [(0x307, ⟨0, true⟩)] }).map
    (fun t => (t.sweep.record.bind (·.fail), t.port.outstanding)) = some (some (.storeParity, 0x3FFF), none) := by decide
theorem test_sweep_block_check : (after (.sweepBlockResponse (.okay [0x34333231]))
    (sweeping (sweepRecord 0 1 0 (.check (some 0x9BE3E0A3) 0 none)) ⟨0, 1, [], .access⟩ bypass)).map
    (fun t => t.sweep.record.map (fun r => (r.outcome, r.work))) =
    some (some (.done, .check (some 0x9BE3E0A3) 0x9BE3E0A3 (some true))) := by decide
theorem test_sweep_suspend_none : answer (.sweepSuspend 1) bypass = some (.noSweep, []) := by decide
/-- R116, R134: a waiting block is withdrawn. -/
theorem test_sweep_suspend_waiting : (after (.sweepSuspend 1) waitingSweepIdle).map (fun t =>
    (t.sweep.state, t.sweep.block, t.arbiter.waitSweep, t.arbiter.sweepPassed)) = some (.suspended, none, false, 0) := by decide
/-- 08, example, step 5: the block at start address + words done is taken in hand. -/
theorem test_sweep_resume : (after (.sweepResume 1) (suspended (sweepRecord 0x1005 20 11 (.fill 0x200 true)) bypass)).map
    (fun t => t.port.outstanding.map (·.request)) = some (some (.read 0x1010 8)) := by decide
theorem test_sweep_abort : (after (.sweepAbort 1) (suspended (sweepRecord 0x1005 20 11 (.fill 0x200 true)) bypass)).map
    (fun t => (t.sweep.state, t.sweep.record.map (fun r => (r.outcome, r.done)), hasCause t.control.causes .sweepEnd)) =
    some (.idle, some (.aborted, 11), true) := by decide
theorem test_sweep_status_none : answer (.sweepStatus 1) bypass = some (.ok, List.replicate 33 0) := by decide

/-! ## Machines that meet the hypotheses of the statements -/

theorem witness_StepRunsFrontCommand : ({ bypass with pending := [.nop 0, .nop 1] } : State).pending = .nop 0 :: [.nop 1] ∧
    exec .resetRelease inReset = .next { inReset with pins := { inReset.pins with reset := false } } := ⟨rfl, rfl⟩

theorem witness_CommandsCompleteOrStopByName :
    (Instr.storeUpset 4095 0).wellFormed = true ∧ fitsOutstanding (.storeUpset 4095 0) bypass = true ∧
    (Instr.downstreamResponse (.okay [1, 2])).wellFormed = true ∧
    fitsOutstanding (.downstreamResponse (.okay [1, 2])) outstanding = true ∧ 4096 ≤ 4096 ∧
    (BusRequest.read 0 9).wellFormed = false ∧ fitsOutstanding (.downstreamResponse (.okay [1])) outstanding = false ∧
    fitsOutstanding (.linkAccessResponse (.okay [])) (accessing (.readRaw 1 0x5000 8)) = false ∧
    fitsOutstanding (.sweepBlockResponse (.okay []))
      (sweeping (sweepRecord 0 8 0 (.check none 0 none)) ⟨0, 8, [], .access⟩ bypass) = false := by decide

/-- ENGAGE waits in the queue of a part in BYPASS. -/
def commanded : State := { bypass with pending := [.engage 1] }

theorem commanded_steps : ∃ t, step commanded = .next t := ⟨_, rfl⟩
theorem witness_StoreStaysCanonical : StoreSound { commanded with store := [(0, ⟨1, false⟩), (4095, ⟨0, true⟩)] } ∧
    ∃ t, step { commanded with store := [(0, ⟨1, false⟩), (4095, ⟨0, true⟩)] } = .next t := ⟨by decide, _, rfl⟩
theorem commanded_configs : ConfigsSound commanded := by
  have h : ∀ i ∈ List.range 24, configInRange i (commanded.slot i).staged ∧ configInRange i (commanded.slot i).active := by
    decide
  exact fun i hi => h i (List.mem_range.mpr hi)
theorem witness_ConfigsStayInRange : TableSound commanded ∧ ConfigsSound commanded ∧ ∃ t, step commanded = .next t :=
  ⟨by decide, commanded_configs, commanded_steps⟩

/-- Slot 23 LIVE one below its limit, and a command in the queue. -/
def belowIt : State :=
  withSlots [(23, { liveSlot { resetConfig with limit := 2, action := .retire } with
                    status := { clearedStatus .live with count := 1 } })] commanded

theorem witness_SlotsStayBelowTheirLimit : LimitsSound belowIt ∧ ∃ t, step belowIt = .next t := ⟨by decide, _, rfl⟩
theorem witness_CaptureQueueStaysConsecutive : CaptureSound (captured 64) ∧ ∃ t, step (captured 64) = .next t :=
  ⟨by decide, _, rfl⟩
theorem witness_SoundStatesStaySound : Sound commanded ∧ ∃ t, step commanded = .next t :=
  ⟨⟨by decide, by decide, by decide, commanded_configs, by decide, by decide, by decide, by decide,
    ⟨by decide, by decide, by decide, by decide, by intro r hr; cases hr⟩, by decide,
    ⟨by decide, by decide, by intro x hx; cases hx⟩, by decide, by decide⟩, commanded_steps⟩

theorem witness_NoStartableCommandWaits : StartSound { blocked with pending := [.exchangeEnd ackFrame] } ∧
    StartSound State.reset ∧ ∃ t, step { blocked with pending := [.exchangeEnd ackFrame] } = .next t :=
  ⟨by decide, by decide, _, rfl⟩

theorem witness_LinesAndTimeRows : active.forward.path = .idle ∧ active.control.part = .active ∧
    bypass.control.part ≠ .active ∧ example02A.forward.path ≠ .idle ∧ holding.pins.reset = false ∧
    inReset.pins.reset = true ∧ holding.forward.path = .held ⟨write1 0x7000 0, .okay []⟩ := by decide
theorem witness_UpsetAndStartupClear : StoreSound bypass ∧ 4095 < 4096 ∧ State.reset.pins.reset = false ∧
    State.reset.control.clear = .running 0 ∧
    ({ State.reset.control with clear := .running 4095 } : Control).clear = .running 4095 := by decide
/-- The start-up clear about to write a given word. -/
def clearing (n : Nat) : State := { State.reset with control := { resetControl with clear := .running n } }

/-- The host request outstanding for a given number of bus clocks, of its 256 units of 16. -/
def waited (n : Nat) : State :=
  { outstanding with port := { outstanding.port with outstanding := some ⟨.read 0x20 2, 256, n⟩ } }

/-- The hold with a given number of ticks left. -/
def holdingFor (n : Nat) : State := { holding with capture := { holding.capture with held := some ⟨offer, n⟩ } }

theorem witness_IdleStepIsOneBusClock :
    (bypass.pending = [] ∧ bypass.pins.reset = false ∧ bypass.control.clear = .complete ∧
      bypass.port.outstanding = none ∧ bypass.capture.held = none ∧
      bypass.control.config.prescale ≤ bypass.control.prescaleCount ∧ inReset.pending = [] ∧ inReset.pins.reset = true ∧
      ¬ (configured (fun c => { c with prescale := 255 }) bypass).control.config.prescale ≤ 254) ∧
    (∀ n, (clearing n).pending = [] ∧ (clearing n).pins.reset = false ∧ StoreSound (clearing n) ∧
      (clearing n).control.clear = .running n ∧ (clearing n).port.outstanding = none ∧
      (clearing n).capture.held = none) ∧ 4094 < 4095 ∧
    (∀ n, (waited n).pending = [] ∧ (waited n).pins.reset = false ∧ (waited n).control.clear = .complete ∧
      (waited n).port.outstanding = some ⟨.read 0x20 2, 256, n⟩ ∧ (waited n).capture.held = none) ∧
    (4094 + 1 < 256 * 16 ∧ 256 * 16 ≤ 4095 + 1) ∧
    (∀ n, (holdingFor n).pending = [] ∧ (holdingFor n).pins.reset = false ∧ (holdingFor n).control.clear = .complete ∧
      (holdingFor n).port.outstanding = none ∧ (holdingFor n).forward.path = .held ⟨write1 0x7000 0, .okay []⟩ ∧
      (holdingFor n).capture.held = some ⟨offer, n⟩) ∧
    2 - 1 ≠ 0 ∧ 1 - 1 = 0 ∧ (holdingFor 1).control.config.prescale ≤ (holdingFor 1).control.prescaleCount :=
  ⟨by decide, fun _ => ⟨rfl, rfl, (by decide : StoreSound State.reset), rfl, rfl, rfl⟩, by decide,
    fun _ => ⟨rfl, rfl, rfl, rfl, rfl⟩, by decide, fun _ => ⟨rfl, rfl, rfl, rfl, rfl, rfl⟩, by decide⟩

/-- The port is taken by the link access unit. -/
def portTaken (s : State) : State := { s with arbiter := { s.arbiter with owner := some .link } }

theorem witness_RequestForwardedOutsideActive : (BusRequest.read 4194303 8).wellFormed = true ∧
    mayAccept State.reset = true ∧ State.reset.forward.presented = none ∧
    (sampleFbyp State.reset).control.part ≠ .active ∧ portIdle State.reset.arbiter = true ∧
    mayAccept { active with pins := { active.pins with fbyp := true } } = true ∧
    (sampleFbyp { active with pins := { active.pins with fbyp := true } }).control.part ≠ .active ∧
    mayAccept (portTaken bypass) = true ∧ portIdle (portTaken bypass).arbiter = false := by decide
theorem witness_RequestAnsweredErrorAtOnce : (BusRequest.read 7 2).wellFormed = true ∧ malformed (.read 7 2) = true ∧
    mayAccept example02 = true ∧ example02.forward.presented = none ∧ example02.control.part = .active ∧
    example02.pins.fbyp = false ∧ (write1 0x3007 0).wellFormed = true ∧ malformed (write1 0x3007 0) = false ∧
    (decideRequest (write1 0x3007 0) example02).words.any (decidedBy (takeSnapshot example02.table) .guard) = true := by
  decide

/-- The machine of the example of 04 with a bad word at 303h. -/
def faulty04 : State := { example04 with store := [(0x303, ⟨7, true⟩)] }

theorem witness_ReadTakesItsCourse :
    ((BusRequest.read 0x6003 1).wellFormed = true ∧ mayAccept faulty04 = true ∧ faulty04.forward.presented = none ∧
      faulty04.control.part = .active ∧ faulty04.pins.fbyp = false ∧ malformed (.read 0x6003 1) = false ∧
      (decideRequest (.read 0x6003 1) faulty04).words.any (decidedBy (takeSnapshot faulty04.table) .guard) = false ∧
      shadowFaulted (fetchWords faulty04.store (decideRequest (.read 0x6003 1) faulty04)) = true) ∧
    (shadowFaulted (fetchWords example02.store (decideRequest (.read 0x3000 8) example02)) = false ∧
      (decideRequest (.read 0x3000 8) example02).words.any (decidedBy (takeSnapshot example02.table) .guard) = false ∧
      (fetchWords example02.store (decideRequest (.read 0x3000 8) example02)).words.any
        (needsMemory (takeSnapshot example02.table)) = true ∧
      portIdle example02.arbiter = true ∧ mayAccept (portTaken example02) = true ∧
      portIdle (portTaken example02).arbiter = false) ∧
    (shadowFaulted (fetchWords example04.store (decideRequest (.read 0x6000 4) example04)) = false ∧
      (fetchWords example04.store (decideRequest (.read 0x6000 4) example04)).words.any
        (needsMemory (takeSnapshot example04.table)) = false) := by decide
theorem witness_WriteTakesItsCourse : mayAccept example04 = true ∧ example04.forward.presented = none ∧
    example04.control.part = .active ∧ example04.pins.fbyp = false ∧
    ((BusRequest.write 0x6003 [⟨1, 0xF#4⟩, ⟨2, 8⟩]).wellFormed = true ∧
      malformed (.write 0x6003 [⟨1, 0xF#4⟩, ⟨2, 8⟩]) = false ∧
      (decideRequest (.write 0x6003 [⟨1, 0xF#4⟩, ⟨2, 8⟩]) example04).words.any
        (decidedBy (takeSnapshot example04.table) .guard) = false ∧
      anyLane (passedWords (decideRequest (.write 0x6003 [⟨1, 0xF#4⟩, ⟨2, 8⟩]) example04) [⟨1, 0xF#4⟩, ⟨2, 8⟩]) = true ∧
      portIdle example04.arbiter = true ∧ portIdle (portTaken example04).arbiter = false ∧
      mayAccept (portTaken example04) = true) ∧
    anyLane (passedWords (decideRequest (.write 0x6003 [⟨1, 0xF#4⟩, ⟨2, 0⟩]) example04) [⟨1, 0xF#4⟩, ⟨2, 0⟩]) = false := by
  decide

/-- A READ of word 0 waits at the upstream port. -/
def presenting (s : State) : State := { s with forward := { s.forward with presented := some (.read 0 1) } }

theorem witness_RequestWaitsAtTheBusyPort : (BusRequest.read 0 1).wellFormed = true ∧ mayAccept inReset = false ∧
    inReset.forward.presented = none ∧ mayAccept outstanding = false ∧ outstanding.forward.presented = none ∧
    (presenting inReset).forward.presented = some (.read 0 1) ∧ mayAccept (presenting inReset) = false ∧
    (presenting bypass).forward.presented = some (.read 0 1) ∧ mayAccept (presenting bypass) = true := by decide
theorem witness_MemoryAnswersForwardedRequest :
    outstanding.forward.path = .outstanding ⟨.read 0x20 2, .bypass, none⟩ ∧ answers (.read 0x20 2) (.okay [1, 2]) = true ∧
    answers (.read 0x20 2) .error = true ∧ NobodyWaits outstanding.arbiter := by decide
theorem witness_MemoryAnswerSettlesRequest : (∃ d, example02A.forward.path = .outstanding ⟨.read 0x3000 4, .active, some d⟩ ∧
    answers (downstreamRequest ⟨.read 0x3000 4, .active, some d⟩) (.okay [1, 2, 3, 4]) = true) ∧
    NobodyWaits example02A.arbiter := ⟨⟨_, rfl, by decide⟩, by decide⟩
theorem witness_TimeoutEndsHostRequest : outstanding.forward.path = .outstanding ⟨.read 0x20 2, .bypass, none⟩ ∧
    outstanding.arbiter.owner = some .forward ∧ NobodyWaits outstanding.arbiter ∧
    example02A.arbiter.owner = some .forward ∧ StartSound outstanding ∧ StartSound example02A ∧
    (∃ d, example02A.forward.path = .outstanding ⟨.read 0x3000 4, .active, some d⟩) :=
  ⟨by decide, by decide, by decide, by decide, by decide, by decide, _, rfl⟩

theorem witness_LanesComposed : 3 < 4 ∧
    deciderConfig (takeSnapshot example02.table) ⟨0x3001, some 2, [7], some ⟨5, true⟩⟩ =
      some { resetConfig with mode := .patch, k := 1, base := 0x3000, offset := 0x100, lanes := 3 } ∧
    (⟨0x3001, some 2, [7], some ⟨5, true⟩⟩ : WordDecision).fetched = some ⟨5, true⟩ ∧
    deciderConfig (takeSnapshot example02.table) ⟨0x3002, none, [7], none⟩ = none := by decide
theorem witness_HitAccounted : TableSound (withSlots [(23, { liveSlot { resetConfig with limit := 3 } with
      status := { clearedStatus .live with count := 65535, hit := true } })] active) ∧ 23 < 24 ∧
    reachesLimit ((withSlots [(23, { liveSlot { resetConfig with limit := 3 } with
      status := { clearedStatus .live with count := 65535, hit := true } })] active).slot 23) = false := by decide

/-- Slot 23 about to reach its limit, with slot 5 in a given state. -/
def atLimit (a : LimitAction) (st : SlotState) : State :=
  withSlots [(23, liveSlot { resetConfig with limit := 1, action := a, link := 5 }),
    (5, { resetSlot with status := { clearedStatus st with count := 9 } })] active

/-- Slot 0 about to reach its NOTIFY limit, its unused link field naming itself. -/
def selfLinked : State := withSlots [(0, liveSlot { resetConfig with limit := 1, action := .notify, link := 0 })] active

theorem witness_LimitActionCarriedOut : 23 < 24 ∧
    (TableSound selfLinked ∧ reachesLimit (selfLinked.slot 0) = true ∧ (selfLinked.slot 0).active.action = .notify ∧
      (selfLinked.slot 0).active.link = 0) ∧ ∀ a ∈ [LimitAction.notify, .retire, .handoff],
    ∀ st ∈ [SlotState.idle, .armed, .live, .spent], TableSound (atLimit a st) ∧
      reachesLimit ((atLimit a st).slot 23) = true ∧ ((atLimit a st).slot 23).active.link ≠ 23 ∧
      ((atLimit a st).slot 23).active.action = a ∧ ((atLimit a st).slot 5).status.state = st := by decide

/-- Slots 2 and 7 are about to hand off to the ARMED slot 5; slot 23 is a LIVE PATCH slot. -/
def counting : State :=
  withSlots [(2, liveSlot { resetConfig with limit := 1, action := .handoff, link := 5 }),
    (5, { resetSlot with status := { clearedStatus .armed with count := 9 } }),
    (7, liveSlot { resetConfig with limit := 1, action := .handoff, link := 5 }),
    (23, liveSlot { resetConfig with mode := .patch })] active

theorem witness_SettleCountsEverySlotOnce : TableSound counting ∧
    ([(2, 0x10), (7, 0x10), (23, 0x11)].map (·.1)).Pairwise (· < ·) ∧
    (∀ p ∈ [(2, 0x10), (7, 0x10), (23, 0x11)], p.1 < 24 ∧ (counting.slot p.1).status.state = .live) ∧
    (handsOff counting 2 = true ∧ handsOff counting 7 = true ∧ handsOff counting 23 = false) ∧
    handsOver counting [(2, 0x10), (7, 0x10), (23, 0x11)] 2 = true ∧
    handsOver counting [(2, 0x10), (7, 0x10), (23, 0x11)] 7 = false ∧
    5 ∉ [(2, 0x10), (7, 0x10), (23, 0x11)].map (·.1) ∧
    (∃ d, example02A.forward.path = .outstanding ⟨.read 0x3000 4, .active, some d⟩ ∧
      answers (downstreamRequest ⟨.read 0x3000 4, .active, some d⟩) (.okay [1, 2, 3, 4]) = true ∧
      listedSlots d (countingSet .read .okay d) ≠ [] ∧ example02A.capture.queue.length < 64) ∧
    (∃ d, example02P.forward.path = .outstanding ⟨.read 0x3000 1, .active, some d⟩ ∧
      answers (downstreamRequest ⟨.read 0x3000 1, .active, some d⟩) (.okay [1]) = true ∧
      listedSlots d (countingSet .read .okay d) = []) :=
  ⟨by decide, by decide, by decide, by decide, by decide, by decide, by decide,
    ⟨_, rfl, by decide, by decide, by decide⟩, ⟨_, rfl, by decide, by decide⟩⟩
/-- R88: of two slots that hand off to one ARMED target the lower-numbered succeeds, and the other misses. -/
theorem test_competing_handoffs :
    let t := accountSlots .read 0 ⟨takeSnapshot counting.table, []⟩ [(2, 0x10), (7, 0x10)] counting
    ((t.slot 5).status.state, (t.slot 2).status.handoffMissed, (t.slot 7).status.handoffMissed) = (.live, false, true) := by
  decide
theorem witness_ShadowedWordsGoToTheStore : [(⟨1, 3⟩ : WriteWord)][0]? = some ⟨1, 3⟩ ∧ StoreSound example04 ∧
    deciderConfig (takeSnapshot example04.table) ⟨0x6003, some 11, [14], none⟩ =
      some { resetConfig with mode := .shadow, k := 2, base := 0x6000, offset := 0x300 } ∧
    storeIndex { resetConfig with mode := .shadow, k := 2, base := 0x6000, offset := 0xFFC } 0x6003 = 4095 ∧
    storeIndex { resetConfig with mode := .shadow, k := 2, base := 0x6000, offset := 0x300 } 0x6003 < 4096 ∧
    (8 : Lanes) ≠ 0 ∧ (⟨1, 0⟩ : WriteWord).lanes = 0 ∧ 4095 < 4096 := by decide

theorem witness_GrantDecisionOrder :
    (1 ≠ 0 ∧ (⟨none, true, true, true, 1, 1⟩ : Arbiter).waitLink = true ∧ 1 ≤ (⟨none, true, true, true, 1, 1⟩ : Arbiter).linkPassed) ∧
    ((⟨none, true, true, true, 0, 1⟩ : Arbiter).waitSweep = true ∧ 1 ≤ (⟨none, true, true, true, 0, 1⟩ : Arbiter).sweepPassed ∧
      (⟨none, true, true, true, 0, 1⟩ : Arbiter).linkPassed < 1) ∧
    (255 ≠ 0 ∧ (⟨none, true, true, true, 254, 254⟩ : Arbiter).linkPassed < 255) ∧
    chooseRequester waitingSweep.control.config.patience waitingSweep.arbiter = some .sweep := by decide
theorem witness_CaptureOfferTaken : (captured 63).capture.queue.length < 64 ∧ 64 ≤ (captured 64).capture.queue.length ∧
    (captured 64).control.config.policy = .drop ∧
    (configured (fun c => { c with policy := .hold }) (captured 64)).control.config.policy = .hold ∧
    softResetWaits (configured (fun c => { c with policy := .hold }) (captured 64)) = false ∧
    [(7, 0x3007), (23, 0x3003)] ≠ [] ∧
    (captureOffer (.read 0x3000 8) .okay ⟨[], []⟩ (.okay (List.replicate 8 5)) 1 [(7, 0x3007), (23, 0x3003)]).keyAddr =
      0x3003 := by decide
theorem witness_CaptureRecordsRemoved : Ready (captured 64) ∧
    (∀ x ∈ (captured 64).capture.queue, x.sequence ≠ BitVec.ofNat 16 99) ∧
    (captured 64).capture.queue = [] ++ ⟨100, offer, 0⟩ :: (queueOf 64).drop 1 ∧
    (captured 64).capture.queue = (queueOf 64).take 63 ++ ⟨163, offer, 0⟩ :: [] ∧
    (∀ y ∈ (queueOf 64).take 63, y.sequence ≠ BitVec.ofNat 16 163) ∧ isHeld (captured 64).forward.path = false ∧
    Ready holding ∧ holding.capture.queue ≠ [] ∧ holding.forward.path = .held ⟨write1 0x7000 0, .okay []⟩ ∧
    holding.capture.held = some ⟨offer, 1000⟩ ∧ holding.capture.queue = [] ++ ⟨100, offer, 0⟩ :: (queueOf 64).drop 1 := by
  decide

theorem witness_StartingAndUnknownAnswered : (Instr.engage 1).command = some (1, .engage) ∧ LinkReady State.reset ∧
    State.reset.control.part = .starting ∧ Command.engage ≠ .nop ∧ Command.engage ≠ .partStatus ∧
    Command.engage ≠ .alertStatus ∧ (∀ echo, Command.engage ≠ .ping echo) ∧ assignedCodes.contains 0xFF = false :=
  ⟨rfl, by decide, rfl, by decide, by decide, by decide, nofun, by decide⟩

/-- A command queue of `n` NOPs. -/
def queued (n : Nat) : State := { bypass with link := { resetLink with commands := List.replicate n ⟨0, 0, []⟩ } }

theorem witness_CommandsQueuedOrRefused : (Instr.nop 1).command = some (1, .nop) ∧ inReset.pins.reset = true ∧
    (queued 3).pins.reset = false ∧ (queued 3).link.commands.length < 4 ∧ (queued 3).link.commands ≠ [] ∧
    4 ≤ (queued 4).link.commands.length ∧
    4 ≤ ({ resetLink with responses := List.replicate 4 (.held ⟨0, .ok, []⟩) } : LinkInterface).responses.length := by decide
theorem witness_CommandBytesReadBack : (Command.storeWrite 65535 255 (List.replicate 13 0xFFFFFFFF)).wellFormed = true := by
  decide
theorem witness_CommandStartRunsTheHead : (Instr.ping 1 (List.replicate 8 0)).command = some (1, .ping (List.replicate 8 0)) ∧
    (Instr.ping 1 (List.replicate 8 0)).wellFormed = true ∧ LinkReady bypass ∧ mayStart bypass = false ∧
    (after (.ping 1 (List.replicate 8 0)) bypass).map (·.link.executing) = some none ∧
    (Instr.readRaw 1 0 8).command = some (1, .readRaw 0 8) ∧ (Instr.readRaw 1 0 8).wellFormed = true ∧
    (after (.readRaw 1 0 8) bypass).map (·.link.executing) = some (some .access) := by decide

/-- An exchange that has just begun, with three commands queued and one response held. -/
def exchanging (sent : Sent) : State :=
  { queued 3 with
    link := { (queued 3).link with
      responses := [.held ⟨7, .ok, []⟩], lastSent := sent
      exchange := some ⟨.response, outboundFrame 7 .ok [] [], 0, []⟩ } }

/-- An exchange that has just begun, with three commands queued and a refusal in the holding. -/
def refusing : State :=
  { queued 3 with
    link := { (queued 3).link with
      refusal := some ⟨9, .full, false⟩, lastSent := .refusal
      exchange := some ⟨.refusal, outboundFrame 9 .full [true] [], 0, []⟩ } }

/-- The exchange sends the refusal, and the response was sent last. -/
def bothWait : State :=
  { refusing with link := { refusing.link with responses := [.held ⟨7, .ok, []⟩], lastSent := .response } }

/-- The ready link with an exchange that has just begun. -/
def listening : State :=
  { bypass with link := { resetLink with exchange := some ⟨.nothing, outboundFrame 0 .ok [] [], 0, []⟩ } }

theorem witness_WireFrameQueuesItsCommand : (Command.ping (List.replicate 8 1)).wellFormed = true ∧
    ((exchanging .response).link.exchange = some ⟨.response, outboundFrame 7 .ok [] [], 0, []⟩ ∧
      (exchanging .response).link.commands.length < 4 ∧ (exchanging .response).link.lastSent = .response ∧
      (exchanging .response).link.responses = .held ⟨7, .ok, []⟩ :: [] ∧ (1 : Byte).getLsbD 0 = true ∧ (7 : Byte) ≠ 8) ∧
    ((0 : Byte).getLsbD 0 = false ∧ (exchanging .nothing).link.lastSent = .nothing ∧
      (exchanging .nothing).link.exchange = some ⟨.response, outboundFrame 7 .ok [] [], 0, []⟩) ∧
    (refusing.link.exchange = some ⟨.refusal, outboundFrame 9 .full [true] [], 0, []⟩ ∧
      refusing.link.commands.length < 4 ∧ refusing.link.lastSent = .refusal ∧
      refusing.link.refusal = some ⟨9, .full, false⟩ ∧ (9 : Byte) ≠ 8) ∧
    (bothWait.link.exchange = some ⟨.refusal, outboundFrame 9 .full [true] [], 0, []⟩ ∧
      bothWait.link.commands.length < 4 ∧ bothWait.link.lastSent = .response ∧
      bothWait.link.responses = .held ⟨7, .ok, []⟩ :: []) ∧
    (LinkReady listening ∧ listening.link.exchange = some ⟨.nothing, outboundFrame 0 .ok [] [], 0, []⟩ ∧
      (Instr.nop 1).command = some (1, .nop) ∧ (Instr.nop 1).wellFormed = true ∧ Command.nop.wellFormed = true) := by decide

/-- A NOP frame of sequence 3 with a given length byte. -/
def nopFrame (length : Byte) : List Byte := withCrc [length, 3, 0, 0, 0]

/-- Four commands wait behind four held responses, and an exchange has just begun. -/
def overfull : State := { blocked with link := { blocked.link with commands := List.replicate 4 ⟨0, 0, []⟩ } }

theorem witness_FaultyFrameRefused :
    (bitsBytes ((bytesBits [6]).take 512) = [6] ∧ lengthField [6] < 7) ∧
    (bitsBytes ((bytesBits [65]).take 512) = [65] ∧ 64 < lengthField [65]) ∧
    (bitsBytes ((bytesBits [64]).take 512) = [64] ∧ lengthField [64] ≤ 64 ∧ [(64 : Byte)].length < lengthField [64]) ∧
    (lengthField [7, 3, 0, 0, 0, 0, 0] = 7 ∧
      crcField [7, 3, 0, 0, 0, 0, 0] ≠ (crc16 (frameBody [7, 3, 0, 0, 0, 0, 0])).toNat) ∧
    (bitsBytes ((bytesBits (nopFrame 7)).take 512) = nopFrame 7 ∧ lengthField (nopFrame 7) = 7 ∧
      crcField (nopFrame 7) = (crc16 (frameBody (nopFrame 7))).toNat ∧ 4 ≤ overfull.link.commands.length) ∧
    (StartSound overfull ∧ overfull.link.exchange = some ⟨.response, outboundFrame 1 .ok [] [], 0, []⟩) ∧
    StartSound listening ∧ listening.link.exchange = some ⟨.nothing, outboundFrame 0 .ok [] [], 0, []⟩ := by decide
theorem witness_ExchangeSendsTheOldestItem : bypass.pins.reset = false ∧ bypass.pins.lsel = false ∧
    bypass.link.refusal = none ∧ heldResponses bypass.link.responses = [] ∧
    heldResponses [.held ⟨7, .ok, []⟩, .reserved 8] = ⟨7, .ok, []⟩ :: [] ∧
    ({ resetLink with refusal := some ⟨1, .full, true⟩ } : LinkInterface).refusal = some ⟨1, .full, true⟩ ∧
    (configured (fun c => { c with enable := 0x2000 }) { bypass with control := { bypass.control with causes := 0x2000 } }).alert =
      true ∧
    (configured (fun c => { c with enable := 0x1FFF }) { bypass with control := { bypass.control with causes := 0x2000 } }).alert =
      false := by decide

theorem witness_BoundaryCommandsWaitAndRun : (Instr.slotAck 1 23).command = some (1, .slotAck 23) ∧
    boundaryOf (.slotAck 23) = some (.slotAck 23) ∧ Ready outstanding ∧ outstanding.forward.path ≠ .idle ∧
    Ready bypass ∧ bypass.forward.path = .idle ∧ (Instr.softReset 1).command = some (1, .softReset) ∧
    (after (.slotAck 1 23) bypass).map (·.link.executing) = some none ∧
    (after (.softReset 1) bypass).map (·.link.executing) = some none ∧
    (Ready (sweeping (sweepRecord 0 8 0 (.check none 0 none)) ⟨0, 8, [], .access⟩ bypass) ∧
      (after (.softReset 1) (sweeping (sweepRecord 0 8 0 (.check none 0 none)) ⟨0, 8, [], .access⟩ bypass)).map
        (·.link.executing) = some (some .softResetBlock)) ∧ StartSound outstanding := by decide

/-- A dirty slot 23 staged LIVE over offset 207h, the last of the FILL's destination. -/
def conflicting : State :=
  withSlots [(23, { resetSlot with
    dirty := true
    staged := { resetConfig with mode := .shadow, offset := 0x207, initial := .live }
    active := { resetConfig with mode := .shadow, offset := 0x207 } })] (filling bypass)

theorem no_fill : ∀ o n, fillDestination bypass.sweep = some (o, n) → False := by
  intro o n h
  rw [show fillDestination bypass.sweep = none from rfl] at h
  cases h

theorem witness_TableCommitted : (Ready conflicting ∧ conflicting.forward.path = .idle ∧
      fillDestination conflicting.sweep = some (0x200, 8) ∧ 23 < 24 ∧
      commitConflicts (conflicting.slot 23) 0x200 8 = true ∧
      ∀ j < 23, commitConflicts (conflicting.slot j) 0x200 8 = false) ∧
    Ready bypass ∧ ∀ o n, fillDestination bypass.sweep = some (o, n) → ∀ i < 24, commitConflicts (bypass.slot i) o n = false :=
  ⟨by decide, by decide, fun o n h => (no_fill o n h).elim⟩
theorem witness_SlotStateAndAck : (Ready conflicting ∧ 23 < 24 ∧ conflicting.forward.path = .idle ∧
      fillDestination conflicting.sweep = some (0x200, 8) ∧ rangeMeets (conflicting.slot 23).active 0x200 8 = true) ∧
    (∀ o n, fillDestination bypass.sweep = some (o, n) → rangeMeets (bypass.slot 23).active o n = false) ∧ 2 < 3 :=
  ⟨by decide, fun o n h => (no_fill o n h).elim, by decide⟩
theorem witness_StoreWritten : (Ready (filling bypass) ∧ StoreSound (filling bypass) ∧ (filling bypass).forward.path = .idle ∧
      fillDestination (filling bypass).sweep = some (0x200, 8) ∧ overlaps 0x207 12 0x200 8 = true ∧ 0x207 + 12 ≤ 4096) ∧
    (4084 + (List.replicate 12 (0 : Word)).length ≤ 4096 ∧ 1 ≤ 1) ∧
    (∀ o n, fillDestination bypass.sweep = some (o, n) → overlaps 4084 12 o n = false) :=
  ⟨by decide, by decide, fun o n h => (no_fill o n h).elim⟩
theorem witness_EngageAndDisengage : Ready bypass ∧ bypass.forward.path = .idle ∧ bypass.control.part = .bypass ∧
    bypass.pins.fbyp = false ∧ Ready active ∧ active.control.part = .active ∧ 1 ≤ 1 ∧
    (∀ i < 24, (active.slot i).active.mode ≠ .shadow ∨ (active.slot i).status.state ≠ .live) ∧ Ready example04 ∧
    (example04.slot 11).active.mode = .shadow ∧ (example04.slot 11).status.state = .live ∧
    (∀ j < 11, (example04.slot j).active.mode ≠ .shadow ∨ (example04.slot j).status.state ≠ .live) ∧
    Ready { bypass with pins := { bypass.pins with fbyp := true } } := by decide
/-- A SOFT_RESET waits for a request whose record will find the queue full under HOLD. -/
def resetting : State :=
  configured (fun c => { c with policy := .hold })
    { example02A with
      capture := (captured 64).capture, link := waitingLink 5 .softReset (.boundary .softReset) example02A.link }

theorem witness_SoftResetCarriedOut : (Ready bypass ∧ bypass.forward.path = .idle ∧ blockBegun bypass.sweep = false) ∧
    (Ready waitingSweepIdle ∧ waitingSweepIdle.forward.path = .idle ∧ blockBegun waitingSweepIdle.sweep = false) ∧
    (Ready (sweeping (sweepRecord 0 8 0 (.check none 0 none)) ⟨0, 8, [], .access⟩ bypass) ∧
      blockBegun (sweeping (sweepRecord 0 8 0 (.check none 0 none)) ⟨0, 8, [], .access⟩ bypass).sweep = true) ∧
    (Ready outstanding ∧ outstanding.forward.path ≠ .idle ∧ isHeld outstanding.forward.path = false) ∧
    (Ready holding ∧ holding.forward.path = .held ⟨write1 0x7000 0, .okay []⟩ ∧ blockBegun holding.sweep = false) ∧
    (Ready (sweeping (sweepRecord 0 8 0 (.check none 0 none)) ⟨0, 8, [], .access⟩ holding) ∧
      blockBegun (sweeping (sweepRecord 0 8 0 (.check none 0 none)) ⟨0, 8, [], .access⟩ holding).sweep = true) ∧
    softResetWaits resetting = true ∧ 64 ≤ resetting.capture.queue.length ∧ resetting.control.config.policy = .hold ∧
    (∃ d, resetting.forward.path = .outstanding ⟨.read 0x3000 4, .active, some d⟩ ∧
      answers (downstreamRequest ⟨.read 0x3000 4, .active, some d⟩) (.okay [1, 2, 3, 4]) = true ∧
      listedSlots d (countingSet .read .okay d) ≠ []) :=
  ⟨by decide, by decide, by decide, by decide, by decide, by decide, by decide, by decide, by decide,
    ⟨_, rfl, by decide, by decide⟩⟩

theorem witness_PingEchoes : LinkReady State.reset ∧ (List.replicate 8 (0 : Byte)).length ≤ 8 ∧
    8 < (List.replicate 9 (0 : Byte)).length := by decide
theorem witness_ReadingCommandsChangeNothing : LinkReady State.reset ∧ Ready holding ∧ 23 < 24 ∧ 63 ≤ 63 ∧
    (1 ≤ 2 ∧ 2 ≤ 2) ∧ (1 ≤ 12 ∧ 12 ≤ 12 ∧ 4084 + 12 ≤ 4096) := by decide
theorem witness_OutOfRangeAnswered : Ready bypass ∧ bypass.sweep.state = .idle ∧ 1 < 2 ∧ 16383 < 16384 ∧ 23 < 24 ∧ 2 < 3 ∧
    63 < 64 ∧ 2 < 3 ∧ 4194303 < 4194304 ∧ 8 < 9 ∧ 7 / 8 ≠ (7 + 2 - 1) / 8 ∧
    7 / 8 ≠ (7 + [(⟨0, 0⟩ : WriteWord), ⟨0, 0⟩].length - 1) / 8 ∧ 8 < (List.replicate 9 (⟨0, 0⟩ : WriteWord)).length ∧
    12 < 13 ∧ 4096 < 4085 + 12 ∧ 12 < (List.replicate 13 (0 : Word)).length ∧ 4194304 < 4194303 + 2 ∧ 4096 < 4097 ∧
    64 < 65 ∧ 4095 < 4096 ∧ 255 < 256 ∧ 65535 < 65536 := by decide
theorem witness_ConfigWrittenAndAlertsAcknowledged : (Ready (captured 64) ∧ (1 = 1 ∧ Policy.hold = .hold) ∧ 255 ≤ 255 ∧
      1 ≤ 4095 ∧ 4095 ≤ 4095 ∧ 1 ≤ 65535 ∧ 65535 ≤ 65535 ∧ 1 ≤ 64 ∧ 64 ≤ 64 ∧ 16383 ≤ 16383 ∧
      64 ≤ (captured 64).capture.queue.length) ∧
    Ready (captured 47) ∧ 16383 ≤ 16383 ∧
    (captured 47).capture.queue.length < (captured 47).control.config.threshold ∧
    (captured 48).control.config.threshold ≤ (captured 48).capture.queue.length ∧ Ready (captured 48) := by decide

/-- The PATCH slot whose store range ends at the store's last word. -/
def lastPatch : SlotFields :=
  { zeroFields with mode := 1, k := 12, base := 4190208, kinds := 255, lanes := 8, limit := 65535, action := 2, link := 22,
                    initial := 2 }

theorem witness_SlotStaged : Ready bypass ∧ 23 < 24 ∧
    (modeOf 1 = some .patch ∧ actionOf 2 = some .handoff ∧ namedState 2 = some .live ∧
      stageable 23 .patch .handoff lastPatch ∧ lastPatch.base % 2 ^ lastPatch.k = 0) ∧
    (stageable 23 .patch .handoff { lastPatch with base := 4190209 } ∧ 4190209 % 2 ^ 12 ≠ 0) ∧
    ¬ stageable 23 .patch .handoff { lastPatch with offset := 1 } ∧
    ¬ stageable 22 .patch .handoff lastPatch ∧ 3 < 4 ∧ 2 < 3 :=
  ⟨by decide, by decide, ⟨rfl, rfl, rfl, ⟨by decide, by decide, by decide, by decide, by decide, by decide⟩, by decide⟩,
    ⟨⟨by decide, by decide, by decide, by decide, by decide, by decide⟩, by decide⟩,
    fun h => absurd h.2.2.2.1 (by decide), fun h => absurd h.2.2.2.2.2 (by decide), by decide⟩
theorem witness_StagingUndone : Ready holding ∧ 23 < 24 := by decide

theorem witness_MemoryCommandsBegin : Ready bypass ∧ 4194296 ≤ 4194303 ∧ 8 ≤ 8 ∧ 4194296 / 8 = (4194296 + 8 - 1) / 8 ∧
    4194303 ≤ 4194303 ∧ 1 ≤ [(⟨0, 0⟩ : WriteWord)].length ∧
    4194303 / 8 = (4194303 + [(⟨0, 0⟩ : WriteWord)].length - 1) / 8 ∧ portIdle bypass.arbiter = true ∧
    Ready waitingSweep ∧ portIdle waitingSweep.arbiter = false := by decide
theorem witness_ViewReadFixesItsSources : Ready bypass ∧ 4194296 / 8 = (4194296 + 8 - 1) / 8 ∧ bypass.control.part = .bypass ∧
    (List.replicate 8 ({ source := .memory, lanes := 0, data := 0 } : ViewWord)).any
      (fun w => w.source != .store || w.lanes != 0xF#4) = true ∧ portIdle bypass.arbiter = true ∧
    portIdle waitingSweep.arbiter = false ∧ Ready waitingSweep ∧ waitingSweep.control.part = .bypass ∧
    Ready example04 ∧ 0x6000 / 8 = (0x6000 + 4 - 1) / 8 ∧ example04.control.part = .active ∧
    ((decideView 0x6000 4 example04).words.map (viewWord (takeSnapshot example04.table))).any
      (fun w => w.source != .store || w.lanes != 0xF#4) = false ∧
    (∃ c, deciderConfig (takeSnapshot example02.table) ⟨0x3001, some 2, [7], none⟩ = some c ∧ c.mode = .patch ∧
      (storeRead example02.store (storeIndex c 0x3001)).bad = false ∧
      (storeRead (storePut example02.store 0x101 ⟨0, true⟩) (storeIndex c 0x3001)).bad = true) ∧
    (∃ c, deciderConfig (takeSnapshot example02.table) ⟨0x3006, some 9, [7], none⟩ = some c ∧ c.mode = .guard) ∧
    deciderConfig (takeSnapshot example02.table) ⟨0x3002, none, [7], none⟩ = none ∧
    (∃ w ∈ (decideView 0x6000 8 { example04 with table := example04.table.set 8 (liveSlot
        { resetConfig with mode := .guard, k := 1, base := 0x6006, kinds := 2 }) }).words,
      decidedBy (takeSnapshot (example04.table.set 8 (liveSlot
        { resetConfig with mode := .guard, k := 1, base := 0x6006, kinds := 2 }))) .guard w = true) ∧
    (∀ w ∈ (decideView 0x6003 1 faulty04).words, decidedBy (takeSnapshot faulty04.table) .guard w = false) ∧
    (∃ w ∈ (decideView 0x6003 1 faulty04).words, decidedBy (takeSnapshot faulty04.table) .shadow w = true ∧
      w.fetched.any (·.bad) = true) :=
  ⟨by decide, by decide, by decide, by decide, by decide, by decide, by decide, by decide, by decide, by decide, by decide,
    by decide, ⟨_, rfl, by decide⟩, ⟨_, rfl, by decide⟩, by decide, by decide, by decide, by decide⟩

/-- A memory command executing with a given access outstanding. -/
def accessDone (job : AccessJob) : State := { accessing (.writeVerify 1 0x5003 ⟨0xABCD, 3⟩) with access := .outstanding job }

theorem accessDone_executes (job : AccessJob) :
    Executes (accessDone job) .access ⟨1, 0x33, [0x00, 0x50, 0x03, 0, 0, 0xAB, 0xCD, 3]⟩ [] [] := ⟨rfl, rfl, rfl, rfl⟩

theorem witness_LinkAccessAnswered : Executes (accessDone (.readRaw 0 8)) .access
      ⟨1, 0x33, [0x00, 0x50, 0x03, 0, 0, 0xAB, 0xCD, 3]⟩ [] [] ∧
    (accessDone (.readRaw 0 8)).access = .outstanding (.readRaw 0 8) ∧
    answers (jobRequest (.readRaw 0 8)) (.okay (List.replicate 8 0)) = true ∧
    answers (jobRequest (.readView 0 1 [] .okay)) (.okay [1]) = true ∧
    answers (jobRequest (.writeRaw 0 [⟨1, 0xF#4⟩])) (.okay []) = true ∧
    answers (jobRequest (.writeVerify 0x5003 ⟨0xABCD, 3⟩ (.readBack 5))) (.okay [7]) = true ∧
    NobodyWaits (accessDone (.readRaw 0 8)).arbiter ∧
    (accessDone (.writeVerify 0x5003 ⟨0xABCD, 3⟩ .read)).access = .outstanding (.writeVerify 0x5003 ⟨0xABCD, 3⟩ .read) ∧
    (accessDone (.writeVerify 0x5003 ⟨0xABCD, 3⟩ (.write 5))).access =
      .outstanding (.writeVerify 0x5003 ⟨0xABCD, 3⟩ (.write 5)) ∧
    StartSound (accessDone (.writeVerify 0x5003 ⟨0xABCD, 3⟩ .read)) ∧
    StartSound (accessDone (.writeVerify 0x5003 ⟨0xABCD, 3⟩ (.write 5))) :=
  ⟨accessDone_executes _, by decide, by decide, by decide, by decide, by decide, by decide, by decide, by decide,
    by decide, by decide⟩
theorem witness_FailedLinkAccessAnswered : (∀ job, Executes (accessDone job) .access
      ⟨1, 0x33, [0x00, 0x50, 0x03, 0, 0, 0xAB, 0xCD, 3]⟩ [] []) ∧ (∀ job, (accessDone job).access = .outstanding job) ∧
    ∀ job, (accessDone job).arbiter.owner = some .link ∧ NobodyWaits (accessDone job).arbiter :=
  ⟨accessDone_executes, fun _ => rfl, fun _ => ⟨rfl, rfl, rfl, rfl⟩⟩

/-- A LIVE PATCH slot 23 over store offset 207h. -/
def patched : State := withSlots [(23, liveSlot { resetConfig with mode := .patch, offset := 0x207 })] bypass

/-- The machine with a bad store word at 4095. -/
def badStore (s : State) : State := { s with store := [(4095, ⟨0, true⟩)] }

theorem witness_SweepStarts : (Ready (filling bypass) ∧ (filling bypass).sweep.state ≠ .idle) ∧
    (Ready patched ∧ patched.sweep.state = .idle ∧ 4190208 + 4096 ≤ 4194304 ∧ 0x200 + 8 ≤ 4096 ∧
      (patched.slot 23).status.state = .live ∧ rangeMeets (patched.slot 23).active 0x200 8 = true ∧
      ∀ j < 23, (patched.slot j).status.state ≠ .live ∨ rangeMeets (patched.slot j).active 0x200 8 = false) ∧
    (Ready bypass ∧ bypass.sweep.state = .idle ∧ 4194303 < 4194304 ∧ 4194303 + 1 ≤ 4194304 ∧ 4095 + 1 ≤ 4096 ∧
      (∀ j < 24, (bypass.slot j).status.state ≠ .live ∨ rangeMeets (bypass.slot j).active 4095 1 = false) ∧
      (∀ j < min (8 - 4194303 % 8) 1, (storeRead bypass.store (4095 + j)).bad = false) ∧ portIdle bypass.arbiter = true) ∧
    (Ready outstanding ∧ outstanding.sweep.state = .idle ∧ portIdle outstanding.arbiter = false) ∧
    (Ready (badStore bypass) ∧ (badStore bypass).sweep.state = .idle ∧ 4088 + 8 ≤ 4096 ∧ 7 < min (8 - 0 % 8) 8 ∧
      (storeRead (badStore bypass).store (4088 + 7)).bad = true ∧
      ∀ i < 7, (storeRead (badStore bypass).store (4088 + i)).bad = false) := by decide
theorem witness_SweepFlagsSet : bypass.sweep.state = .idle ∧
    ((filling bypass).sweep.state ≠ .idle ∧
      (filling bypass).sweep.record = some (sweepRecord 0x1000 8 0 (.fill 0x200 false))) ∧
    ([(⟨1, 0⟩ : WriteWord), ⟨2, 1⟩][1]? = some ⟨2, 1⟩ ∧ (1 : Lanes) ≠ 0 ∧ 0x1000 ≤ 0x1006 + 1 ∧
      0x1006 + 1 < 0x1000 + 8) ∧
    (∀ j < 2, 0x1008 + j < 0x1000 ∨ 0x1000 + 8 ≤ 0x1008 + j) ∧
    ((suspended (sweepRecord 0 8 0 (.push 0x300 none)) bypass).sweep.record =
        some (sweepRecord 0 8 0 (.push 0x300 none)) ∧ 0x300 ≤ 0x307 ∧ 0x307 < 0x300 + 8 ∧ 0x300 + 8 ≤ 0x308) ∧
    ({ resetConfig with mode := .patch, k := 3, offset := 0x207 }.mode = .patch ∧ 0x207 < 0x200 + 8 ∧
      0x200 < 0x207 + 2 ^ 3 ∧ 0x200 + 8 ≤ 0x208) := by decide
/-- A sweep of some work with its block in hand at the port. -/
def inHand (count done : Nat) (w : SweepWork) (b : Block) : State := sweeping (sweepRecord 0 count done w) b bypass

theorem inHand_sweep (count done : Nat) (w : SweepWork) (b : Block) : (inHand count done w b).sweep =
    { state := .running, record := some (sweepRecord 0 count done w), block := some b } := rfl

/-- A CHECK block completes. -/
theorem check_done {n : Nat} (count done : Nat) (e : Option Word) (data : List Word) (m : Store) (h : data.length = n) :
    BlockDone (sweepRecord 0 count done (.check e 0 none)) ⟨done, n, [], .access⟩ data m
      (.check e (crc32Fold 0 data) none) m := .inl ⟨e, 0, none, rfl, rfl, rfl, rfl, h⟩
/-- A FILL block completes. -/
theorem fill_done {n : Nat} (count done : Nat) (data : List Word) (m : Store) (h : data.length = n) :
    BlockDone (sweepRecord 0 count done (.fill 0 false)) ⟨done, n, [], .access⟩ data m (.fill 0 false)
      (storeWriteWords false m (0 + done) data) := .inr (.inl ⟨0, false, rfl, rfl, rfl, rfl, h⟩)
/-- A PUSH block without verify completes. -/
theorem push_done (count done n : Nat) (ws : List Word) (m : Store) :
    BlockDone (sweepRecord 0 count done (.push 0 none)) ⟨done, n, ws, .access⟩ [] m (.push 0 none) m :=
  .inr (.inr (.inl ⟨0, rfl, rfl, rfl, rfl, rfl⟩))
/-- The read back of a PUSH block of the word 5 that brings 6: one mismatch. -/
theorem verify_done (count done : Nat) (m : Store) :
    BlockDone (sweepRecord 0 count done (.push 0 (some ⟨0, none⟩))) ⟨done, 1, [5], .back⟩ [6] m
      (.push 0 (some ⟨1, some done⟩)) m := .inr (.inr (.inr ⟨0, ⟨0, none⟩, rfl, rfl, rfl, rfl, rfl⟩))

theorem witness_SweepBlockCompletes :
    (∀ w b, NobodyWaits (inHand 9 0 w b).arbiter ∧ NoWaiter (inHand 9 0 w b).link ∧ StartSound (inHand 9 0 w b)) ∧
    0 + 8 < 9 ∧
    BlockDone (sweepRecord 0 9 0 (.check none 0 none)) ⟨0, 8, [], .access⟩ (List.replicate 8 0) []
      (.check none (crc32Fold 0 (List.replicate 8 0)) none) [] ∧
    BlockDone (sweepRecord 0 9 0 (.push 0 none)) ⟨0, 8, List.replicate 8 0, .access⟩ [] [] (.push 0 none) [] ∧
    countAt (sweepRecord 0 9 0 (.push 0 none)) 8 = 1 ∧ (storeRead bypass.store (4087 + 8 + 0)).bad = false ∧
    (storeRead (badStore bypass).store (4087 + 8 + 0)).bad = true ∧
    ((inHand 1 0 (.push 0 (some ⟨0, none⟩)) ⟨0, 1, [5], .access⟩).sweep =
        { state := .running, record := some (sweepRecord 0 1 0 (.push 0 (some ⟨0, none⟩))),
          block := some ⟨0, 1, [5], .access⟩ } ∧
      NobodyWaits (inHand 1 0 (.push 0 (some ⟨0, none⟩)) ⟨0, 1, [5], .access⟩).arbiter ∧
      StartSound (inHand 1 0 (.push 0 (some ⟨0, none⟩)) ⟨0, 1, [5], .access⟩)) :=
  ⟨fun _ _ => ⟨⟨rfl, rfl, rfl⟩, ⟨nofun, nofun, nofun⟩, ⟨fun h => absurd rfl h, nofun⟩⟩, by decide,
    check_done 9 0 none _ [] rfl, push_done 9 0 8 _ [], by decide, by decide, by decide, by decide⟩
theorem witness_SweepEndsDone :
    (∀ w b, (inHand 9 8 w b).sweep =
        { state := .running, record := some (sweepRecord 0 9 8 w), block := some b } ∧
      NobodyWaits (inHand 9 8 w b).arbiter ∧ NoWaiter (inHand 9 8 w b).link ∧ StartSound (inHand 9 8 w b)) ∧ 8 + 1 = 9 ∧
    BlockDone (sweepRecord 0 9 8 (.check (some 3) 0 none)) ⟨8, 1, [], .access⟩ [0] []
      (.check (some 3) (crc32Fold 0 [0]) none) [] ∧
    BlockDone (sweepRecord 0 9 8 (.fill 0 false)) ⟨8, 1, [], .access⟩ [7] [] (.fill 0 false)
      (storeWriteWords false [] (0 + 8) [7]) ∧
    BlockDone (sweepRecord 0 9 8 (.push 0 none)) ⟨8, 1, [5], .access⟩ [] [] (.push 0 none) [] ∧
    BlockDone (sweepRecord 0 9 8 (.push 0 (some ⟨0, none⟩))) ⟨8, 1, [5], .back⟩ [6] [] (.push 0 (some ⟨1, some 8⟩)) [] :=
  ⟨fun _ _ => ⟨rfl, ⟨rfl, rfl, rfl⟩, ⟨nofun, nofun, nofun⟩, ⟨fun h => absurd rfl h, nofun⟩⟩, rfl,
    check_done 9 8 (some 3) _ [] rfl, fill_done 9 8 _ [] rfl, push_done 9 8 1 _ [], verify_done 9 8 []⟩

/-- A command that waits for the block in hand, with a NOP behind it. -/
def awaiting (e : Executing) (s : State) : State :=
  { s with link := { resetLink with commands := [⟨5, 0x43, []⟩, ⟨6, 0, []⟩], executing := some e, responses := [.reserved 5] } }

theorem witness_WaitersActAtTheBlockEnd :
    (∀ e count done w b, (awaiting e (inHand count done w b)).sweep =
        { state := .running, record := some (sweepRecord 0 count done w), block := some b } ∧
      Executes (awaiting e (inHand count done w b)) e ⟨5, 0x43, []⟩ [⟨6, 0, []⟩] [] ∧
      NobodyWaits (awaiting e (inHand count done w b)).arbiter ∧
      (awaiting e (inHand count done w b)).arbiter.owner = some .sweep) ∧
    (0 + 8 < 9 ∧ BlockDone (sweepRecord 0 9 0 (.fill 0 false)) ⟨0, 8, [], .access⟩ (List.replicate 8 7) [] (.fill 0 false)
      (storeWriteWords false [] (0 + 0) (List.replicate 8 7))) ∧
    (8 + 1 = 9 ∧ BlockDone (sweepRecord 0 9 8 (.push 0 (some ⟨0, none⟩))) ⟨8, 1, [5], .back⟩ [6] []
      (.push 0 (some ⟨1, some 8⟩)) []) :=
  ⟨fun _ _ _ _ _ => ⟨rfl, ⟨rfl, rfl, rfl, rfl⟩, ⟨rfl, rfl, rfl⟩, rfl⟩, ⟨by decide, fill_done 9 0 _ [] rfl⟩,
    ⟨rfl, verify_done 9 8 []⟩⟩
theorem witness_FailedBlockEndsTheSweep :
    (inHand 9 8 (.check none 0 none) ⟨8, 1, [], .access⟩).sweep =
      { state := .running, record := some (sweepRecord 0 9 8 (.check none 0 none)), block := some ⟨8, 1, [], .access⟩ } ∧
    NobodyWaits (inHand 9 8 (.check none 0 none) ⟨8, 1, [], .access⟩).arbiter ∧
    NoWaiter (inHand 9 8 (.check none 0 none) ⟨8, 1, [], .access⟩).link ∧
    StartSound (inHand 9 8 (.check none 0 none) ⟨8, 1, [], .access⟩) ∧
    (inHand 9 8 (.check none 0 none) ⟨8, 1, [], .access⟩).arbiter.owner = some .sweep ∧
    (inHand 9 8 (.push 0 (some ⟨0, none⟩)) ⟨8, 1, [5], .back⟩).sweep.block.map (·.phase) = some .back := by decide

/-- A PUSH suspended with 3 of its 5 words from 4091 on done. -/
def pushing (s : State) : State := suspended (sweepRecord 5 5 3 (.push 4091 none)) s

theorem witness_SweepSuspendResumeAbort : (Ready bypass ∧ bypass.sweep.state = .idle) ∧
    (Ready (inHand 9 0 (.fill 0 false) ⟨0, 8, [], .access⟩) ∧
      (inHand 9 0 (.fill 0 false) ⟨0, 8, [], .access⟩).sweep.state = .running ∧
      blockBegun (inHand 9 0 (.fill 0 false) ⟨0, 8, [], .access⟩).sweep = true) ∧
    (Ready waitingSweep ∧ waitingSweep.sweep.state = .running ∧ blockBegun waitingSweep.sweep = false) ∧
    (Ready (filling bypass) ∧ (filling bypass).sweep.state = .suspended ∧
      (filling bypass).sweep.record = some (sweepRecord 0x1000 8 0 (.fill 0x200 false)) ∧
      workCode (.fill 0x200 false) ≠ workCode (.push 0 none) ∧ portIdle (filling bypass).arbiter = true) ∧
    (Ready (pushing bypass) ∧ (pushing bypass).sweep.state = .suspended ∧
      (pushing bypass).sweep.record = some (sweepRecord 5 5 3 (.push 4091 none)) ∧
      portIdle (pushing bypass).arbiter = true ∧ countAt (sweepRecord 5 5 3 (.push 4091 none)) 3 = 2 ∧
      ∀ j < 2, (storeRead (pushing bypass).store (4091 + 3 + j)).bad = false) ∧
    (Ready (pushing (badStore bypass)) ∧ 1 < countAt (sweepRecord 5 5 3 (.push 4091 none)) 3 ∧
      (storeRead (pushing (badStore bypass)).store (4091 + 3 + 1)).bad = true ∧
      ∀ i < 1, (storeRead (pushing (badStore bypass)).store (4091 + 3 + i)).bad = false) := by decide

end Sys2Proof.Tests
end

namespace Sys2Proof.Proofs

open Sys2Proof.Machine

set_option Elab.async false

/-! ## The rows of the link commands

A link command's row at a ready link is its block's meaning at the started state, and most answers are one completion
there. -/

/-- The command of a row as it stands in the command queue (R157, R188). -/
def queuedOf (q : Byte) (c : Command) : QueuedCommand := ⟨q, commandCode c, commandArgs c⟩

@[simp] theorem queuedOf_seq (q : Byte) (c : Command) : (queuedOf q c).seq = q := rfl

/-- Every link command's row submits the command that it stands for, to run as the dispatch runs it. -/
theorem exec_of_command {i : Instr} {q : Byte} {c : Command} (h : i.command = some (q, c)) (s : State) :
    exec i s = .next (submitCommand q c (runCommand c) s) := by
  cases i <;> cases h <;> rfl

/-- At a ready link a command's row is its command run at its start. -/
theorem exec_of_ready {i : Instr} {q : Byte} (c : Command) {s : State} (hr : Ready s)
    (h : i.command = some (q, c) := by rfl) :
    exec i s = .next (runCommand c (startedState (queuedOf q c) s)) := by
  rw [exec_of_command h, submitCommand_ready hr.1]; rfl

/-- The start of a command leaves the part state, so it is past STARTING at a ready link. -/
theorem started_past {s : State} (hr : Ready s) (q : QueuedCommand) : (startedState q s).control.part ≠ .starting := hr.2

/-- The start of a command leaves the forwarding path. -/
theorem started_idle {s : State} (h : s.forward.path = .idle) (q : QueuedCommand) :
    (startedState q s).forward.path = .idle := h

/-- A command that its block answers at once, with no other effect. -/
theorem exec_of_answer {i : Instr} {q : Byte} (c : Command) {s : State} (hr : Ready s) {st : Status} {p : List Byte}
    (hc : runCommand c (startedState (queuedOf q c) s) = complete st p (startedState (queuedOf q c) s))
    (h : i.command = some (q, c) := by rfl) :
    exec i s = .next (answered q st p s) := by
  rw [exec_of_ready c hr h, hc, complete_startedState hr.1, queuedOf_seq]

/-- A command that its block answers at once with the table replaced. -/
theorem exec_of_table {i : Instr} {q : Byte} (c : Command) {s : State} (hr : Ready s) {st : Status} {p : List Byte}
    {t : List Slot}
    (hc : runCommand c (startedState (queuedOf q c) s) = complete st p ((startedState (queuedOf q c) s).withTable t))
    (h : i.command = some (q, c) := by rfl) :
    exec i s = .next (answered q st p { s with table := t }) := by
  rw [exec_of_ready c hr h, hc, complete_withTable, complete_startedState hr.1]; rfl

/-! ## First checks -/

/-- Past STARTING a command that names a slot of the table goes on to its own meaning (R10). -/
theorem onSlot_of_lt {slot : Nat} {s : State} (hp : s.control.part ≠ .starting) (h : slot < Config.slotCount)
    (f : State → State) : onSlot slot f s = f s := by
  rw [onSlot, unlessStarting_past hp, if_pos h]

/-- Past STARTING a slot number above 23 is answered RANGE (R10). -/
theorem onSlot_of_ge {slot : Nat} {s : State} (hp : s.control.part ≠ .starting) (h : Config.slotCount ≤ slot)
    (f : State → State) : onSlot slot f s = complete .range [] s := by
  rw [onSlot, unlessStarting_past hp, if_neg (Nat.not_lt.mpr h)]

/-- Past STARTING an idle engine answers a start command RANGE where its arguments are out of range (R129). -/
theorem checkStart_outOfRange {s : State} (hp : s.control.part ≠ .starting) (hi : s.sweep.state = .idle)
    {inRange : Bool} (h : inRange = false) (f : State → State) : checkStart inRange f s = complete .range [] s := by
  rw [checkStart, unlessStarting_past hp, if_neg (by simp [hi]), h]; rfl

/-- At an IDLE path a boundary command is carried out where it is taken (R29). -/
theorem atBoundary_of_idle {s : State} (h : s.forward.path = .idle) (b : BoundaryCommand) : atBoundary b s = carry b s :=
  if_pos h

/-- With a request in flight a boundary command waits (R29). -/
theorem atBoundary_of_busy {s : State} (h : s.forward.path ≠ .idle) (b : BoundaryCommand) :
    atBoundary b s = await (.boundary b) s := if_neg h

/-! ## Enumerated argument bytes -/

theorem modeOf_eq_none {n : Nat} (h : 3 < n) : modeOf n = none := by
  match n, h with
  | _ + 4, _ => rfl

theorem actionOf_eq_none {n : Nat} (h : 2 < n) : actionOf n = none := by
  match n, h with
  | _ + 3, _ => rfl

theorem namedState_eq_none {n : Nat} (h : 2 < n) : namedState n = none := by
  match n, h with
  | _ + 3, _ => rfl

theorem onOff_eq_none {n : Nat} (h : 1 < n) : onOff n = none := by
  match n, h with
  | _ + 2, _ => rfl

theorem policyOf_eq_none {n : Nat} (h : 1 < n) : policyOf n = none := by
  match n, h with
  | _ + 2, _ => rfl

/-- SPENT is no state that a command names (R11, R17). -/
theorem namedState_ne_spent {n : Nat} {st : SlotState} (h : namedState n = some st) : st ≠ .spent := by
  rintro rfl
  unfold namedState at h
  split at h <;> cases h

/-! ## SLOT_STAGE's checks -/

/-- No RANGE condition of R11 is met exactly where the configuration may be staged. -/
theorem slotRangeFault_eq_false {slot : Nat} {m : Mode} {a : LimitAction} {f : SlotFields} :
    slotRangeFault slot m a f = false ↔ stageable slot m a f := by
  simp only [slotRangeFault, stageable, Config.spaceWords, Config.storeWords, Config.slotCount, Bool.or_eq_false_iff,
    Bool.and_eq_false_imp, Bool.and_eq_true, decide_eq_false_iff_not, Nat.not_le, Nat.not_lt, Bool.not_eq_true', beq_iff_eq,
    bne_iff_ne, ne_eq, beq_eq_false_iff_ne, and_imp, and_assoc]

theorem checkSlotFields_named {f : SlotFields} {m : Mode} {a : LimitAction} {st : SlotState} (slot : Nat)
    (hm : modeOf f.mode = some m) (ha : actionOf f.action = some a) (hi : namedState f.initial = some st) :
    checkSlotFields slot f =
      if stageable slot m a f then
        if f.base % 2 ^ f.k = 0 then .ok (stagedConfig f m a st) else .error .misaligned
      else .error .range := by
  have hf := slotRangeFault_eq_false (slot := slot) (m := m) (a := a) (f := f)
  by_cases hs : stageable slot m a f
  · by_cases hb : f.base % 2 ^ f.k = 0 <;> simp [checkSlotFields, hm, ha, hi, hf.mpr hs, if_pos hs, hb, stagedConfig]
  · have : slotRangeFault slot m a f = true := by simpa using mt hf.mp hs
    simp only [checkSlotFields, hm, ha, hi, this, if_neg hs, if_true]

theorem checkSlotFields_unnamed {f : SlotFields} (slot : Nat) (h : 3 < f.mode ∨ 2 < f.action ∨ 2 < f.initial) :
    checkSlotFields slot f = .error .range := by
  unfold checkSlotFields
  split
  next hm ha hi =>
    rcases h with h | h | h
    · simp [modeOf_eq_none h] at hm
    · simp [actionOf_eq_none h] at ha
    · simp [namedState_eq_none h] at hi
  next => rfl

theorem runSlotStage_ok {slot : Nat} {f : SlotFields} {s : State} {c : SlotConfig} (hp : s.control.part ≠ .starting)
    (h : slot < Config.slotCount) (hc : checkSlotFields slot f = .ok c) :
    runSlotStage slot f s = complete .ok [] (s.setSlot slot (stageSlot c (s.slot slot))) := by
  rw [runSlotStage, onSlot_of_lt hp h, hc]

theorem runSlotStage_error {slot : Nat} {f : SlotFields} {s : State} {st : Status} (hp : s.control.part ≠ .starting)
    (h : slot < Config.slotCount) (hc : checkSlotFields slot f = .error st) :
    runSlotStage slot f s = complete st [] s := by
  rw [runSlotStage, onSlot_of_lt hp h, hc]

/-- Settles O48: a named configuration is staged, MISALIGNED or RANGE as `checkSlotFields` finds it. -/
theorem slotStaged : Obligations.SlotStaged := by
  intro s q slot f hr hslot
  have refused {st : Status} (hc : checkSlotFields slot f = .error st) :
      exec (.slotStage q slot f) s = .next (answered q st [] s) :=
    exec_of_answer (.slotStage slot f) hr (runSlotStage_error (started_past hr _) hslot hc)
  refine ⟨fun m a st hm ha hi => ?_, fun h => refused (checkSlotFields_unnamed slot h)⟩
  have hc := checkSlotFields_named slot hm ha hi
  refine ⟨fun hs hb => ?_, fun hs hb => ?_, fun hs => ?_⟩
  · rw [if_pos hs, if_pos hb] at hc
    exact exec_of_table (.slotStage slot f) hr (runSlotStage_ok (started_past hr _) hslot hc)
  · rw [if_pos hs, if_neg hb] at hc
    exact refused hc
  · rw [if_neg hs] at hc
    exact refused hc

/-! ## SLOT_UNSTAGE and TABLE_DISCARD -/

theorem runSlotUnstage_of_lt {slot : Nat} {s : State} (hp : s.control.part ≠ .starting) (h : slot < Config.slotCount) :
    runSlotUnstage slot s = complete .ok [] (s.setSlot slot (unstageSlot (s.slot slot))) := onSlot_of_lt hp h _

theorem runTableDiscard_past {s : State} (hp : s.control.part ≠ .starting) :
    runTableDiscard s = complete .ok [] (s.withTable (s.table.map unstageSlot)) := unlessStarting_past hp _

/-- A table of clean slots has no dirty slot. -/
theorem dirtySlots_eq_nil {t : List Slot} (h : ∀ x ∈ t, x.dirty = false) : dirtySlots t = [] := by
  refine List.filter_eq_nil_iff.mpr fun i _ => ?_
  rw [slotAt, List.getD_eq_getElem?_getD]
  cases hi : t[i]? with
  | none => simp [resetSlot]
  | some x => simp [h x (List.mem_of_getElem? hi)]

/-- Settles O49: both commands are answered at once, past their first checks. -/
theorem stagingUndone : Obligations.StagingUndone := by
  refine ⟨fun s q slot hr hslot => ?_, fun s q hr => ⟨_, ?_, rfl, ?_⟩⟩
  · exact exec_of_table (.slotUnstage slot) hr (runSlotUnstage_of_lt (started_past hr _) hslot)
  · exact exec_of_table .tableDiscard hr (runTableDiscard_past (started_past hr _))
  · exact dirtySlots_eq_nil (by simp [answered])

/-! ## TABLE_COMMIT -/

theorem commitConflict_of_lowest {s : State} {i o n : Nat} (hf : fillDestination s.sweep = some (o, n))
    (hi : i < Config.slotCount) (hc : commitConflicts (s.slot i) o n = true)
    (hl : ∀ j < i, commitConflicts (s.slot j) o n = false) : commitConflict s = some i := by
  simp only [commitConflict, hf]
  exact List.find?_range_eq_some.mpr ⟨hc, List.mem_range.mpr hi, by simpa using hl⟩

theorem commitConflict_of_none {s : State}
    (h : ∀ o n, fillDestination s.sweep = some (o, n) → ∀ i < Config.slotCount, commitConflicts (s.slot i) o n = false) :
    commitConflict s = none := by
  unfold commitConflict
  split
  next o n hf => exact List.find?_range_eq_none.mpr (by simpa using h o n hf)
  next => rfl

theorem runTableCommit_of_idle {s : State} (hp : s.control.part ≠ .starting) (h : s.forward.path = .idle) :
    runTableCommit s = carryTableCommit s := by
  rw [runTableCommit, unlessStarting_past hp, atBoundary_of_idle h]; rfl

/-- Settles O39, by what the conflict check finds. -/
theorem tableCommitted : Obligations.TableCommitted := by
  intro s q hr hidle
  have hrun := runTableCommit_of_idle (s := startedState (queuedOf q .tableCommit) s) (started_past hr _) hidle
  refine ⟨fun i o n hf hi hc hl => exec_of_answer .tableCommit hr (hrun.trans ?_),
    fun h => exec_of_table .tableCommit hr (hrun.trans ?_)⟩
  · have : commitConflict (startedState (queuedOf q .tableCommit) s) = some i := commitConflict_of_lowest hf hi hc hl
    rw [carryTableCommit, this]
  · have : commitConflict (startedState (queuedOf q .tableCommit) s) = none := commitConflict_of_none h
    rw [carryTableCommit, this]; rfl

/-! ## SLOT_STATE and SLOT_ACK -/

theorem runSlotState_named {slot k : Nat} {st : SlotState} {s : State} (hp : s.control.part ≠ .starting)
    (hs : slot < Config.slotCount) (hk : namedState k = some st) :
    runSlotState slot k s = atBoundary (.slotState slot st) s := by
  rw [runSlotState, onSlot_of_lt hp hs, hk]

/-- A state that SLOT_STATE may not name is answered RANGE, as is a slot that is not there (R10, R17). -/
theorem runSlotState_unnamed {slot k : Nat} {s : State} (hp : s.control.part ≠ .starting) (hk : 2 < k) :
    runSlotState slot k s = complete .range [] s := by
  rcases Nat.lt_or_ge slot Config.slotCount with h | h
  · rw [runSlotState, onSlot_of_lt hp h, namedState_eq_none hk]
  · exact onSlot_of_ge hp h _

theorem liveConflict_eq_true {x : Slot} {e : SweepEngine} {o n : Nat} (hf : fillDestination e = some (o, n))
    (h : rangeMeets x.active o n = true) : liveConflict x e = true := by
  simp [liveConflict, hf, h]

theorem liveConflict_eq_false {x : Slot} {e : SweepEngine}
    (h : ∀ o n, fillDestination e = some (o, n) → rangeMeets x.active o n = false) : liveConflict x e = false := by
  unfold liveConflict
  split
  next o n hf => exact h o n hf
  next => rfl

theorem carrySlotState_conflict {slot : Nat} {s : State} (h : liveConflict (s.slot slot) s.sweep = true) :
    carrySlotState slot .live s = complete .conflict [] s := if_pos ⟨rfl, h⟩

theorem carrySlotState_taken {slot : Nat} {st : SlotState} {s : State}
    (h : st = .live → liveConflict (s.slot slot) s.sweep = false) :
    carrySlotState slot st s = complete .ok [] (s.setStatus slot (namedStatus st (s.slot slot).status)) :=
  if_neg fun ⟨hl, hc⟩ => by simp [h hl] at hc

theorem runSlotAck_of_idle {slot : Nat} {s : State} (hp : s.control.part ≠ .starting) (h : slot < Config.slotCount)
    (hi : s.forward.path = .idle) : runSlotAck slot s = carrySlotAck slot s := by
  rw [runSlotAck, onSlot_of_lt hp h, atBoundary_of_idle hi]; rfl

/-- Settles O40, by the value that SLOT_STATE names. -/
theorem slotStateAndAck : Obligations.SlotStateAndAck := by
  intro s q slot hr hslot hidle
  have named {k : Nat} {st : SlotState} (hk : namedState k = some st) :
      runCommand (.slotState slot k) (startedState (queuedOf q (.slotState slot k)) s) =
        carrySlotState slot st (startedState (queuedOf q (.slotState slot k)) s) :=
    (runSlotState_named (started_past hr _) hslot hk).trans (atBoundary_of_idle (started_idle hidle _) _)
  have taken {k : Nat} {st : SlotState} (hk : namedState k = some st)
      (h : st = .live → liveConflict (s.slot slot) s.sweep = false) :
      exec (.slotState q slot k) s = .next (answered q .ok [] { s with
        table := s.table.set slot { s.slot slot with status := namedStatus st (s.slot slot).status } }) :=
    exec_of_table (.slotState slot _) hr ((named hk).trans (carrySlotState_taken h))
  refine ⟨fun o n hf hm => ?_, fun h => ?_, fun k hk => ?_, fun k st h => ?_, ?_⟩
  · exact exec_of_answer (.slotState slot _) hr ((named rfl).trans (carrySlotState_conflict (liveConflict_eq_true hf hm)))
  · exact taken rfl fun _ => liveConflict_eq_false h
  · exact exec_of_answer (.slotState slot _) hr (runSlotState_unnamed (started_past hr _) hk)
  · rcases h with ⟨rfl, rfl⟩ | ⟨rfl, rfl⟩ <;> exact taken rfl nofun
  · exact exec_of_table (.slotAck slot) hr (runSlotAck_of_idle (started_past hr _) hslot (started_idle hidle _))

end Sys2Proof.Proofs

namespace Sys2Proof.Proofs

open Sys2Proof.Machine

set_option Elab.async false

/-! ## Arguments outside their ranges

For each range check of the model the arguments that fail it, and for each command the RANGE that it then answers. -/

theorem accessRange_eq_false {addr count : Nat}
    (h : 4194303 < addr ∨ count = 0 ∨ 8 < count ∨ addr / 8 ≠ (addr + count - 1) / 8) :
    accessRange addr count = false := by
  rw [Bool.eq_false_iff]
  intro hr
  simp only [accessRange, inOneBlock, Config.spaceWords, Config.blockWords, Bool.and_eq_true, decide_eq_true_eq,
    beq_iff_eq] at hr
  omega

theorem storeRange_eq_false {offset count : Nat} (h : count = 0 ∨ 12 < count ∨ 4096 < offset + count) :
    storeRange offset count = false := by
  rw [Bool.eq_false_iff]
  intro hr
  simp only [storeRange, Config.storeWords, Bool.and_eq_true, decide_eq_true_eq] at hr
  omega

theorem sweepRange_eq_false {addr count most : Nat}
    (h : 4194303 < addr ∨ count = 0 ∨ most < count ∨ 4194304 < addr + count) : sweepRange addr count most = false := by
  rw [Bool.eq_false_iff]
  intro hr
  simp only [sweepRange, Config.spaceWords, Bool.and_eq_true, decide_eq_true_eq] at hr
  omega

theorem copyRange_eq_false {addr count offset : Nat}
    (h : 4194303 < addr ∨ count = 0 ∨ 4096 < count ∨ 4194304 < addr + count ∨ 4096 < offset + count) :
    copyRange addr count offset = false := by
  rw [Bool.eq_false_iff]
  intro hr
  simp only [copyRange, sweepRange, Config.spaceWords, Config.storeWords, Bool.and_eq_true, decide_eq_true_eq] at hr
  omega

theorem checkConfigFields_eq_none {f : ConfigFields}
    (h : 1 < f.policy ∨ 255 < f.prescale ∨ f.timeout = 0 ∨ 4095 < f.timeout ∨ 255 < f.patience ∨ f.holdLimit = 0 ∨
      65535 < f.holdLimit ∨ f.threshold = 0 ∨ 64 < f.threshold ∨ 16383 < f.enable) : checkConfigFields f = none := by
  unfold checkConfigFields
  split
  next => rfl
  next p hp =>
    have hpolicy : ¬ 1 < f.policy := fun hlt => by simp [policyOf_eq_none hlt] at hp
    refine if_neg fun hr => ?_
    simp only [Bool.and_eq_true, decide_eq_true_eq] at hr
    omega

section
variable {s : State} (hp : s.control.part ≠ .starting)
include hp

theorem runDisengage_range {force : Nat} (h : 1 < force) : runDisengage force s = complete .range [] s := by
  rw [runDisengage, unlessStarting_past hp, onOff_eq_none h]

theorem runSetConfig_range {f : ConfigFields} (h : checkConfigFields f = none) :
    runSetConfig f s = complete .range [] s := by
  rw [runSetConfig, unlessStarting_past hp, h]

theorem runAlertAck_range {causes : Nat} (h : 16383 < causes) : runAlertAck causes s = complete .range [] s := by
  rw [runAlertAck, unlessStarting_past hp, if_neg (by omega)]

section
variable {slot : Nat} (h : Config.slotCount ≤ slot)
include h

theorem runSlotStage_range (f : SlotFields) : runSlotStage slot f s = complete .range [] s := onSlot_of_ge hp h _

theorem runSlotUnstage_range : runSlotUnstage slot s = complete .range [] s := onSlot_of_ge hp h _

theorem runSlotRead_range : runSlotRead slot s = complete .range [] s := onSlot_of_ge hp h _

theorem runSlotState_range (k : Nat) : runSlotState slot k s = complete .range [] s := onSlot_of_ge hp h _

theorem runSlotAck_range : runSlotAck slot s = complete .range [] s := onSlot_of_ge hp h _

end

theorem runCaptureRead_range {skip count : Nat} (h : 63 < skip ∨ count = 0 ∨ 2 < count) :
    runCaptureRead skip count s = complete .range [] s := by
  rw [runCaptureRead, unlessStarting_past hp, if_neg (by omega)]

theorem runReadRaw_range {addr count : Nat} (h : accessRange addr count = false) :
    runReadRaw addr count s = complete .range [] s := by
  simp [runReadRaw, unlessStarting_past hp, h]

theorem runReadView_range {addr count : Nat} (h : accessRange addr count = false) :
    runReadView addr count s = complete .range [] s := by
  simp [runReadView, unlessStarting_past hp, h]

theorem runWriteRaw_range {addr : Nat} {words : List WriteWord} (h : accessRange addr words.length = false) :
    runWriteRaw addr words s = complete .range [] s := by
  simp [runWriteRaw, unlessStarting_past hp, h]

theorem runWriteVerify_range {addr : Nat} (w : WriteWord) (h : 4194303 < addr) :
    runWriteVerify addr w s = complete .range [] s := by
  rw [runWriteVerify, unlessStarting_past hp, if_neg (by simp only [Config.spaceWords]; omega)]

theorem runStoreRead_range {offset count : Nat} (h : storeRange offset count = false) :
    runStoreRead offset count s = complete .range [] s := by
  simp [runStoreRead, unlessStarting_past hp, h]

theorem runStoreWrite_range {offset poison : Nat} {words : List Word}
    (h : storeRange offset words.length = false ∨ 1 < poison) :
    runStoreWrite offset poison words s = complete .range [] s := by
  rw [runStoreWrite, unlessStarting_past hp]
  rcases h with h | h
  · simp [h]
  · simp [onOff_eq_none h]

end

/-- The one part of O46 that is about the engine: its start commands at an idle engine (R131 to R133). -/
theorem startCommands_range {s : State} {q : Byte} (hr : Ready s) (hi : s.sweep.state = .idle) :
    (∀ addr count e, 4194303 < addr ∨ count = 0 ∨ 4194304 < addr + count →
      exec (.sweepCheck q addr count e) s = .next (answered q .range [] s)) ∧
    (∀ addr count offset, 4194303 < addr ∨ count = 0 ∨ 4096 < count ∨ 4194304 < addr + count ∨ 4096 < offset + count →
      exec (.sweepFill q addr count offset) s = .next (answered q .range [] s)) ∧
    (∀ addr count offset verify, 4194303 < addr ∨ count = 0 ∨ 4096 < count ∨ 4194304 < addr + count ∨
        4096 < offset + count ∨ 1 < verify →
      exec (.sweepPush q offset count addr verify) s = .next (answered q .range [] s)) := by
  refine ⟨fun addr count e h => ?_, fun addr count offset h => ?_, fun addr count offset verify h => ?_⟩
  · exact exec_of_answer (.sweepCheck addr count e) hr
      (checkStart_outOfRange (started_past hr _) hi (sweepRange_eq_false (by omega)) _)
  · exact exec_of_answer (.sweepFill addr count offset) hr
      (checkStart_outOfRange (started_past hr _) hi (copyRange_eq_false h) _)
  · refine exec_of_answer (.sweepPush offset count addr verify) hr
      (checkStart_outOfRange (started_past hr _) hi (Bool.and_eq_false_iff.mpr ?_) _)
    rcases Nat.lt_or_ge 1 verify with hv | hv
    · exact .inr (by rw [onOff_eq_none hv]; rfl)
    · exact .inl (copyRange_eq_false (by omega))

/-- Settles O46, command by command. -/
theorem outOfRangeAnswered : Obligations.OutOfRangeAnswered := by
  intro s q hr
  refine ⟨fun force h => ?_, fun f h => ?_, fun causes h => ?_, fun slot h f k => ?_, fun slot k h => ?_,
    fun skip count h => ?_, fun addr count h => ?_, fun addr words h => ?_, fun addr w h => ?_, fun offset count h => ?_,
    fun offset poison words h => ?_, startCommands_range hr⟩
  · exact exec_of_answer (.disengage force) hr (runDisengage_range (started_past hr _) h)
  · exact exec_of_answer (.setConfig f) hr (runSetConfig_range (started_past hr _) (checkConfigFields_eq_none h))
  · exact exec_of_answer (.alertAck causes) hr (runAlertAck_range (started_past hr _) h)
  · exact ⟨exec_of_answer (.slotStage slot f) hr (runSlotStage_range (started_past hr _) h f),
      exec_of_answer (.slotUnstage slot) hr (runSlotUnstage_range (started_past hr _) h),
      exec_of_answer (.slotRead slot) hr (runSlotRead_range (started_past hr _) h),
      exec_of_answer (.slotState slot k) hr (runSlotState_range (started_past hr _) h k),
      exec_of_answer (.slotAck slot) hr (runSlotAck_range (started_past hr _) h)⟩
  · exact exec_of_answer (.slotState slot k) hr (runSlotState_unnamed (started_past hr _) h)
  · exact exec_of_answer (.captureRead skip count) hr (runCaptureRead_range (started_past hr _) h)
  · have hrange := accessRange_eq_false h
    exact ⟨exec_of_answer (.readRaw addr count) hr (runReadRaw_range (started_past hr _) hrange),
      exec_of_answer (.readView addr count) hr (runReadView_range (started_past hr _) hrange)⟩
  · exact exec_of_answer (.writeRaw addr words) hr (runWriteRaw_range (started_past hr _) (accessRange_eq_false h))
  · exact exec_of_answer (.writeVerify addr w) hr (runWriteVerify_range (started_past hr _) w h)
  · exact exec_of_answer (.storeRead offset count) hr (runStoreRead_range (started_past hr _) (storeRange_eq_false h))
  · refine exec_of_answer (.storeWrite offset poison words) hr (runStoreWrite_range (started_past hr _) ?_)
    rcases Nat.lt_or_ge 1 poison with hp | hp
    · exact .inr hp
    · exact .inl (storeRange_eq_false (by omega))

end Sys2Proof.Proofs

namespace Sys2Proof.Proofs

open Sys2Proof.Machine

set_option Elab.async false

/-! ## Boundary commands wait and run

Two facts about `carry` say why a boundary command that waited has the effect that it has where it is taken: what the
command was waiting for does not matter to it, and neither do the commands queued behind it. -/

/-- Past STARTING a link command that passes its first checks as a boundary command is taken to its boundary. -/
theorem runCommand_of_boundaryOf {c : Command} {b : BoundaryCommand} (h : boundaryOf c = some b) {s : State}
    (hp : s.control.part ≠ .starting) : runCommand c s = atBoundary b s := by
  cases c with
  | engage =>
    cases h
    exact unlessStarting_past hp _
  | tableCommit =>
    cases h
    exact unlessStarting_past hp _
  | disengage force =>
    obtain ⟨f, hf, rfl⟩ := Option.map_eq_some_iff.mp h
    rw [runCommand, runDisengage, unlessStarting_past hp, hf]
  | slotState slot state =>
    rw [boundaryOf, Option.ite_none_right_eq_some] at h
    obtain ⟨hs, h⟩ := h
    obtain ⟨st, hst, rfl⟩ := Option.map_eq_some_iff.mp h
    exact runSlotState_named hp hs hst
  | slotAck slot =>
    rw [boundaryOf, Option.ite_none_right_eq_some] at h
    obtain ⟨hs, h⟩ := h
    cases h
    exact onSlot_of_lt hp hs _
  | storeWrite offset poison words =>
    rw [boundaryOf, Option.ite_none_right_eq_some] at h
    obtain ⟨hr, h⟩ := h
    obtain ⟨p, hp', rfl⟩ := Option.map_eq_some_iff.mp h
    rw [runCommand, runStoreWrite, unlessStarting_past hp, hr, hp']
  | _ => cases h

/-! ### What is carried out reaches the link interface as one ending -/

/-- The link interface after the completion of the command at its head (R160). -/
def completeLink (st : Status) (p : List Byte) (l : LinkInterface) : LinkInterface :=
  match l.commands with
  | [] => l
  | q :: rest => { l with commands := rest, executing := none, responses := fillReserved ⟨q.seq, st, p⟩ l.responses }

theorem complete_withLink (st : Status) (p : List Byte) (s : State) (l : LinkInterface) :
    complete st p (s.withLink l) = s.withLink (completeLink st p l) := by
  cases hl : l.commands <;> simp [complete, completeLink, hl]

/-- The two endings of a command that is carried out: it completes with an answer, or it is a SOFT_RESET that goes on
waiting for a begun block (R160, R173). -/
def boundaryEnd : Option (Status × List Byte) → LinkInterface → LinkInterface
  | some (st, p), l => completeLink st p l
  | none, l => { l with executing := some .softResetBlock }

/-- What the carrying out of a command does to the rest of the machine, and how it ends, depends on the link interface
in nothing. -/
abbrev ActsApart (f : State → State) (s : State) : Prop :=
  ∃ (u : State) (e : Option (Status × List Byte)), ∀ l, f (s.withLink l) = u.withLink (boundaryEnd e l)

/-- A change outside the link interface, with the completion of the command. -/
theorem actsApart_of_complete {f : State → State} {s : State} (u : State) (st : Status) (p : List Byte)
    (h : ∀ l, f (s.withLink l) = complete st p (u.withLink l)) : ActsApart f s :=
  ⟨u, some (st, p), fun l => (h l).trans (complete_withLink st p u l)⟩

theorem carryTableCommit_actsApart (s : State) : ActsApart carryTableCommit s := by
  cases hc : commitConflict s with
  | some i =>
    refine actsApart_of_complete s .conflict (natBytes 1 i) fun l => ?_
    have : commitConflict (s.withLink l) = some i := hc
    rw [carryTableCommit, this]
  | none =>
    refine actsApart_of_complete (s.withTable (s.table.map commitSlot)) .ok (natBytes 1 (dirtySlots s.table).length)
      fun l => ?_
    have : commitConflict (s.withLink l) = none := hc
    rw [carryTableCommit, this]; rfl

theorem carrySlotState_actsApart (slot : Nat) (st : SlotState) (s : State) : ActsApart (carrySlotState slot st) s := by
  by_cases hc : st = .live ∧ liveConflict (s.slot slot) s.sweep = true
  · exact actsApart_of_complete s .conflict [] fun l => if_pos hc
  · exact actsApart_of_complete (s.setStatus slot (namedStatus st (s.slot slot).status)) .ok [] fun l => if_neg hc

theorem carryStoreWrite_actsApart (offset : Nat) (poison : Bool) (words : List Word) (s : State) :
    ActsApart (carryStoreWrite offset poison words) s := by
  by_cases hc : storeConflict offset words.length s.sweep = true
  · exact actsApart_of_complete s .conflict [] fun l => if_pos hc
  · exact actsApart_of_complete (s.withStore (storeWriteWords poison s.store offset words)) .ok [] fun l => if_neg hc

theorem carryEngage_actsApart (s : State) : ActsApart carryEngage s := by
  by_cases hf : s.pins.fbyp = true
  · exact actsApart_of_complete s .pinned [] fun l => if_pos hf
  · by_cases hp : s.control.part = .active
    · exact actsApart_of_complete s .ok [] fun l => by simp [carryEngage, hf, hp]
    · refine actsApart_of_complete (s.withControl { s.control with part := .active, forced := false }) .ok [] fun l => ?_
      simp only [carryEngage, State.withLink_pins, if_neg hf, State.withLink_control]
      rfl

theorem leaveActive_actsApart (force : Bool) (s : State) : ActsApart (leaveActive force) s := by
  have left (h : force = true ∨ liveShadow s.table = none) : ActsApart (leaveActive force) s := by
    refine actsApart_of_complete (s.withControl { s.control with part := .bypass }) .ok [] fun l => ?_
    rcases h with rfl | h
    · rfl
    · cases force <;> simp only [leaveActive, State.withLink_table, h] <;> rfl
  cases force with
  | true => exact left (.inl rfl)
  | false =>
    cases hl : liveShadow s.table with
    | none => exact left (.inr hl)
    | some i =>
      exact actsApart_of_complete s .shadowLive (natBytes 1 i) fun l => by
        simp only [leaveActive, State.withLink_table, hl]

theorem carryDisengage_actsApart (force : Bool) (s : State) : ActsApart (carryDisengage force) s := by
  by_cases hp : s.control.part = .active
  · obtain ⟨u, e, h⟩ := leaveActive_actsApart force s
    exact ⟨u, e, fun l => (if_pos hp).trans (h l)⟩
  · exact actsApart_of_complete s .ok [] fun l => if_neg hp

/-- The machine after the change of a soft reset, its command not yet completed (R174). -/
def changedBySoftReset (s : State) : State :=
  { s with
    control := softResetControl s.control
    table := resetTable
    forward := { s.forward with lastAccess := none }
    capture := resetCapture
    arbiter := { s.arbiter with linkPassed := 0, sweepPassed := 0 }
    sweep := resetSweep }

theorem softResetChange_eq (s : State) : softResetChange s = complete .ok [] (changedBySoftReset s) := rfl

theorem carrySoftReset_actsApart (s : State) : ActsApart carrySoftReset s := by
  cases hb : s.sweep.block with
  | none =>
    exact actsApart_of_complete (changedBySoftReset s) .ok [] fun l => by
      simp only [carrySoftReset, State.withLink_sweep, hb, softResetChange_eq]; rfl
  | some b =>
    by_cases hw : b.phase = .waiting
    · exact actsApart_of_complete (changedBySoftReset (withdrawBlock s)) .ok [] fun l => by
        simp only [carrySoftReset, State.withLink_sweep, hb, if_pos hw, softResetChange_eq]; rfl
    · exact ⟨s, none, fun l => by simp only [carrySoftReset, State.withLink_sweep, hb, if_neg hw]; rfl⟩

theorem carry_actsApart (b : BoundaryCommand) (s : State) : ActsApart (carry b) s := by
  cases b with
  | tableCommit => exact carryTableCommit_actsApart s
  | slotState slot st => exact carrySlotState_actsApart slot st s
  | slotAck slot =>
    exact actsApart_of_complete (s.setStatus slot (ackedStatus (s.slot slot).status)) .ok
      [slotFlagByte (s.slot slot).status] fun l => rfl
  | storeWrite offset poison words => exact carryStoreWrite_actsApart offset poison words s
  | engage => exact carryEngage_actsApart s
  | disengage force => exact carryDisengage_actsApart force s
  | softReset => exact carrySoftReset_actsApart s

/-! ### The row BOUNDARY_COMMAND_EXECUTION -/

theorem executeBoundary_of_idle {s : State} {b : BoundaryCommand} (he : s.link.executing = some (.boundary b))
    (hi : s.forward.path = .idle) : executeBoundary s = carry b s := by
  simp [executeBoundary, he, hi]

theorem executeBoundary_of_busy {s : State} (h : s.forward.path ≠ .idle) : executeBoundary s = s := by
  unfold executeBoundary
  split
  · contradiction
  · rfl

/-- A state in which no startable command waits has none that the consideration starts (R158). -/
theorem mayStart_of_startSound {s : State} (h : StartSound s) : mayStart s = false := by
  by_cases hc : s.link.commands = []
  · simp [mayStart, hc]
  · rcases h.1 hc with he | hl
    · exact mayStart_of_executing (Option.isSome_iff_ne_none.mpr he)
    · simp [mayStart, Nat.not_lt.mpr hl]

/-- A boundary command taken at a ready link and an IDLE path is carried out as one that had waited. -/
theorem runCommand_of_boundary_idle {s : State} (hr : Ready s) (hi : s.forward.path = .idle) {q : Byte} {c : Command}
    {b : BoundaryCommand} (hb : boundaryOf c = some b ∨ c = .softReset ∧ b = .softReset) :
    runCommand c (startedState (queuedOf q c) s) = carry b (s.withLink (waitingLink q c (.boundary b) s.link)) := by
  obtain ⟨u, e, hact⟩ := carry_actsApart b s
  have hwait : boundaryEnd e (startedState (queuedOf q c) s).link =
      boundaryEnd e (waitingLink q c (.boundary b) s.link) := by
    rcases e with _ | ⟨st, p⟩ <;> rfl
  rcases hb with hb | ⟨rfl, rfl⟩
  · rw [runCommand_of_boundaryOf hb (started_past hr _), atBoundary_of_idle (started_idle hi _), hact, ← hwait, ← hact]
    rfl
  · have hpath : (await (.boundary .softReset) (startedState (queuedOf q .softReset) s)).forward.path = .idle := hi
    rw [runCommand, runSoftReset, unlessStarting_past (started_past hr _), takeSoftReset,
      endHoldByDrop_of_not_held (fun _ hx => nomatch hpath.symm.trans hx), carryAtIdle, if_pos hpath]
    rfl

/-- Settles O38. A command that was carried out has completed, so that the next is considered, or it is a SOFT_RESET that
executes on. -/
theorem boundaryCommandsWaitAndRun : Obligations.BoundaryCommandsWaitAndRun := by
  refine ⟨fun i q c b s hc hb hr hbusy => ?_, fun i q c b s hc hb hr hi => ?_, fun s hbusy hs => ?_⟩
  · rw [exec_of_ready c hr hc, runCommand_of_boundaryOf hb (started_past hr _),
      atBoundary_of_busy (s := startedState (queuedOf q c) s) hbusy]
    rfl
  · obtain ⟨u, e, hact⟩ := carry_actsApart b s
    have hexec (l : LinkInterface) (hl : l.executing = some (.boundary b)) :
        exec .boundaryCommandExecution (s.withLink l) = .next (considerNext (u.withLink (boundaryEnd e l))) := by
      rw [← hact, ← executeBoundary_of_idle (s := s.withLink l) hl hi]; rfl
    refine ⟨u.withLink (boundaryEnd e (waitingLink q c (.boundary b) s.link)), ?_,
      (hexec (waitingLink q c (.boundary b) s.link) rfl).trans ?_, fun rest => ⟨fun hd => ?_, fun hd => ?_⟩⟩
    · rw [exec_of_ready c hr hc, runCommand_of_boundary_idle hr hi hb, hact]
    · rcases e with _ | ⟨st, p⟩
      · rw [considerNext_of_not (mayStart_of_executing rfl)]
      · rw [considerNext_of_empty rfl]
    · rcases e with _ | ⟨st, p⟩
      · cases hd
      · exact hexec { waitingLink q c (.boundary b) s.link with commands := queuedOf q c :: rest } rfl
    · rcases e with _ | ⟨st, p⟩
      · refine (hexec { waitingLink q c (.boundary b) s.link with commands := queuedOf q c :: rest } rfl).trans ?_
        rw [considerNext_of_not (mayStart_of_executing rfl)]
        rfl
      · exact absurd rfl hd
  · show Host.Outcome.next (considerNext (executeBoundary s)) = .next s
    rw [executeBoundary_of_busy hbusy, considerNext_of_not (mayStart_of_startSound hs)]

end Sys2Proof.Proofs

namespace Sys2Proof.Proofs

open Sys2Proof.Machine

set_option Elab.async false

/-! ## Properties that steps keep

A property of the state that no change of the link interface and no raised cause can break is kept by every row of a
link command, and by every start of a command, as soon as every block's meaning keeps it. -/

/-- The change keeps the property. -/
def Keeps (P : State → Prop) (f : State → State) : Prop := ∀ ⦃s⦄, P s → P (f s)

/-- Every next state that the outcome answers has the property. -/
def NextIn (P : State → Prop) (o : Host.Outcome State Fault Refusal) : Prop := ∀ ⦃t⦄, o = .next t → P t

theorem nextIn_next {P : State → Prop} {t : State} (h : P t) : NextIn P (.next t) := by
  rintro _ ⟨⟩; exact h

theorem nextIn_refused (P : State → Prop) (r : Refusal) : NextIn P (.refused r) := by
  intro _ h; cases h

theorem nextIn_fault (P : State → Prop) (r : Fault) : NextIn P (.fault r) := by
  intro _ h; cases h

theorem executeBoundary_keeps {P : State → Prop} (hcarry : ∀ b, Keeps P (carry b)) : Keeps P executeBoundary := by
  intro s hs
  unfold executeBoundary
  split
  · exact hcarry _ hs
  · exact hs

section
variable {P : State → Prop} (hlink : ∀ l, Keeps P (·.withLink l))
include hlink

theorem complete_keeps (st : Status) (p : List Byte) : Keeps P (complete st p) := by
  intro s hs
  unfold complete
  split
  · exact hs
  · exact hlink _ hs

theorem unlessStarting_keeps {f : State → State} (hf : Keeps P f) : Keeps P (unlessStarting f) := by
  intro s hs
  unfold unlessStarting
  split
  · exact complete_keeps hlink _ _ hs
  · exact hf hs

theorem onSlot_keeps (slot : Nat) {f : State → State} (hf : Keeps P f) :
    Keeps P (onSlot slot f) := by
  refine unlessStarting_keeps hlink fun s hs => ?_
  split
  · exact hf hs
  · exact complete_keeps hlink _ _ hs

theorem atBoundary_keeps {b : BoundaryCommand} (hb : Keeps P (carry b)) : Keeps P (atBoundary b) := by
  intro s hs
  unfold atBoundary
  split
  · exact hb hs
  · exact hlink _ hs

section
variable (hrun : ∀ c, Keeps P (runCommand c))
include hrun

theorem runQueued_keeps (q : QueuedCommand) : Keeps P (runQueued q) := by
  intro s hs
  unfold runQueued
  cases parseCommand q.code q.args with
  | unknown => exact complete_keeps hlink _ _ hs
  | badLength => exact complete_keeps hlink _ _ hs
  | ok c => exact hrun c hs

theorem startHead_keeps : Keeps P startHead := by
  intro s hs
  unfold startHead
  split
  · split
    · exact runQueued_keeps hlink hrun _ (hlink _ hs)
    · exact hs
  · exact hs

theorem considerNext_keeps : Keeps P considerNext := by
  have startNext_keeps (n : Nat) : Keeps P (startNext n) := by
    induction n with
    | zero => exact fun _ hs => hs
    | succ n ih => exact fun _ hs => ih (startHead_keeps hlink hrun hs)
  exact fun _ hs => startNext_keeps _ hs

end

section
variable (hraise : ∀ c, Keeps P (raise c))
include hraise

theorem submit_keeps (q : QueuedCommand) {run : State → State} (hrun : Keeps P run) : Keeps P (submit q run) := by
  have startWith_keeps : Keeps P (startWith run) := by
    intro s hs
    unfold startWith
    split
    · exact hrun (hlink _ hs)
    · exact hs
  intro s hs
  unfold submit
  split
  · exact hs
  · split
    · exact hraise _ (hlink _ hs)
    · split
      · exact startWith_keeps (hlink _ hs)
      · exact hlink _ hs

/-- The rows of link commands keep what their commands keep at their start; the other rows are for `hevent`. -/
theorem exec_keeps (hrun : ∀ c, Keeps P (runCommand c))
    (hevent : ∀ (i : Instr) (s : State), i.command = none → P s → NextIn P (exec i s)) (i : Instr) {s : State}
    (hs : P s) : NextIn P (exec i s) := by
  cases hc : i.command with
  | none => exact hevent i s hc hs
  | some p =>
    rw [exec_of_command (q := p.1) (c := p.2) hc]
    exact nextIn_next (submit_keeps hlink hraise _ (hrun p.2) hs)

end

end

theorem step_keeps {P : State → Prop} (hpending : ∀ q, Keeps P (·.withPending q)) (hclock : Keeps P busClock)
    (hexec : ∀ (i : Instr) (s : State), P s → NextIn P (exec i s)) {s : State} (hs : P s) : NextIn P (step s) := by
  unfold step
  split
  · exact nextIn_next (hclock hs)
  · exact hexec _ _ (hpending _ hs)

/-! ## Configurations in range: the table alone -/

/-- The staged and the active configuration of a slot are in range for its number (01 section 1.2). -/
abbrev slotInRange (i : Nat) (x : Slot) : Prop := configInRange i x.staged ∧ configInRange i x.active

/-- A table of 24 slots whose configurations are in range. -/
def TableInRange (t : List Slot) : Prop := t.length = Config.slotCount ∧ ∀ i x, t[i]? = some x → slotInRange i x

theorem tableInRange_iff (s : State) : TableInRange s.table ↔ TableSound s ∧ ConfigsSound s := by
  refine and_congr_right fun hlen => ⟨fun h i hi => ?_, fun h i x hx => ?_⟩
  · have hlt : i < s.table.length := hlen ▸ hi
    have := h i s.table[i] (List.getElem?_eq_getElem hlt)
    simpa [State.slot, slotAt, List.getD_eq_getElem?_getD, List.getElem?_eq_getElem hlt] using this
  · have hlt : i < s.table.length := (List.getElem?_eq_some_iff.mp hx).1
    have := h i (hlen ▸ hlt)
    simpa [State.slot, slotAt, List.getD_eq_getElem?_getD, hx] using this

theorem TableInRange.slotAt {t : List Slot} (h : TableInRange t) {i : Nat} (hi : i < Config.slotCount) :
    slotInRange i (slotAt t i) := by
  have hlt : i < t.length := h.1 ▸ hi
  have := h.2 i t[i] (List.getElem?_eq_getElem hlt)
  simpa [Machine.slotAt, List.getD_eq_getElem?_getD, List.getElem?_eq_getElem hlt] using this

theorem TableInRange.set {t : List Slot} (h : TableInRange t) {i : Nat} {x : Slot}
    (hx : i < Config.slotCount → slotInRange i x) : TableInRange (t.set i x) := by
  refine ⟨by rw [List.length_set, h.1], fun j y hy => ?_⟩
  rw [List.getElem?_set] at hy
  split at hy
  next hij =>
    split at hy
    next hlt => cases hy; subst hij; exact hx (h.1 ▸ hlt)
    next => cases hy
  next => exact h.2 j y hy

theorem TableInRange.map {t : List Slot} (h : TableInRange t) {f : Slot → Slot}
    (hf : ∀ i x, slotInRange i x → slotInRange i (f x)) : TableInRange (t.map f) := by
  refine ⟨by rw [List.length_map, h.1], fun i y hy => ?_⟩
  rw [List.getElem?_map] at hy
  obtain ⟨x, hx, rfl⟩ := Option.map_eq_some_iff.mp hy
  exact hf i x (h.2 i x hx)

/-- The reset configuration is in range for every slot (R21). -/
theorem resetConfig_inRange (i : Nat) : configInRange i resetConfig := by
  simp [configInRange, resetConfig, maxExponent, hasStoreRange]

theorem resetTable_inRange : TableInRange resetTable := by
  refine ⟨List.length_replicate, fun i x hx => ?_⟩
  obtain rfl := List.eq_of_mem_replicate (List.mem_of_getElem? hx)
  exact ⟨resetConfig_inRange i, resetConfig_inRange i⟩

/-- A configuration that passes SLOT_STAGE's checks is in range (R11, R12). -/
theorem stagedConfig_inRange {slot : Nat} {f : SlotFields} {m : Mode} {a : LimitAction} {st : SlotState}
    (hs : stageable slot m a f) (hb : f.base % 2 ^ f.k = 0) (hst : st ≠ .spent) :
    configInRange slot (stagedConfig f m a st) := by
  obtain ⟨hbase, hk, hkinds, hrange, hlanes, hlink⟩ := hs
  exact ⟨hbase, hk, hb, hkinds, hrange, hlanes, hlink, hst⟩

theorem checkSlotFields_inRange {slot : Nat} {f : SlotFields} {c : SlotConfig} (h : checkSlotFields slot f = .ok c) :
    configInRange slot c := by
  cases hm : modeOf f.mode with
  | none => simp [checkSlotFields, hm] at h
  | some m =>
    cases ha : actionOf f.action with
    | none => simp [checkSlotFields, hm, ha] at h
    | some a =>
      cases hi : namedState f.initial with
      | none => simp [checkSlotFields, hm, ha, hi] at h
      | some st =>
        rw [checkSlotFields_named slot hm ha hi] at h
        split at h
        next hs =>
          split at h
          next hb => cases h; exact stagedConfig_inRange hs hb (namedState_ne_spent hi)
          next => cases h
        next => cases h

/-- A commit makes a staged configuration active, or changes nothing (R16). -/
theorem commitSlot_inRange (i : Nat) (x : Slot) (h : slotInRange i x) : slotInRange i (commitSlot x) := by
  unfold commitSlot
  split
  · exact ⟨h.1, h.1⟩
  · exact h

theorem stageSlot_inRange {i : Nat} {x : Slot} {c : SlotConfig} (h : slotInRange i x) (hc : configInRange i c) :
    slotInRange i (stageSlot c x) := ⟨hc, h.2⟩

theorem unstageSlot_inRange (i : Nat) (x : Slot) (h : slotInRange i x) : slotInRange i (unstageSlot x) := ⟨h.2, h.2⟩

/-! ## Configurations in range: a settle

A settle replaces statuses, never configurations. -/

/-- The property that every step keeps, as one of states. -/
abbrev InRange (s : State) : Prop := TableInRange s.table

theorem setSlot_inRange {s : State} (h : InRange s) {i : Nat} {x : Slot}
    (hx : slotInRange i (s.slot i) → slotInRange i x) : InRange (s.setSlot i x) := h.set fun hi => hx (h.slotAt hi)

theorem setStatus_inRange {s : State} (h : InRange s) (i : Nat) (st : SlotStatus) : InRange (s.setStatus i st) :=
  setSlot_inRange h id

theorem spend_inRange {s : State} (h : InRange s) (i : Nat) : InRange (spend i s) := setStatus_inRange h _ _

theorem handOff_inRange {s : State} (h : InRange s) (i target : Nat) : InRange (handOff i target s) := by
  unfold handOff
  split
  · simpa [InRange] using setStatus_inRange h target _
  · simpa [InRange] using setStatus_inRange h i _

theorem limitAction_inRange {s : State} (h : InRange s) (i : Nat) : InRange (limitAction i s) := by
  unfold limitAction
  split
  · exact h
  · exact spend_inRange h i
  · exact handOff_inRange (spend_inRange h i) i _

theorem noteLimit_inRange {s : State} (h : InRange s) (i : Nat) (x : Slot) : InRange (noteLimit i x s) := by
  unfold noteLimit
  split
  · exact limitAction_inRange (by simpa [InRange] using h) i
  · exact h

theorem accountHit_inRange {s : State} (h : InRange s) (k : Kind) (ts : Word) (i a : Nat) :
    InRange (accountHit k ts i a s) := by
  have counted : InRange ((noteLost (s.slot i).status s).setStatus i (countHit k ts a (s.slot i).status)) :=
    setStatus_inRange (by simpa [InRange] using h) i _
  exact noteLimit_inRange (by simpa [InRange] using counted) i _

theorem flagFault_inRange {s : State} (h : InRange s) (i : Nat) : InRange (flagFault i s) := by
  simpa [InRange, flagFault] using setStatus_inRange h i _

theorem accountFault_inRange {s : State} (h : InRange s) (d : Decided) (i : Nat) : InRange (accountFault d i s) := by
  unfold accountFault
  split
  · split
    · exact spend_inRange (flagFault_inRange h i) i
    · exact flagFault_inRange h i
  · exact h

theorem accountSlots_inRange (k : Kind) (ts : Word) (d : Decided) (hits : List (Nat × Nat)) :
    Keeps InRange (accountSlots k ts d hits) := by
  induction hits with
  | nil => exact fun _ h => h
  | cons p rest ih => exact fun _ h => ih (accountFault_inRange (accountHit_inRange h k ts p.1 p.2) d p.1)

theorem settle_inRange {s : State} (h : InRange s) (r : BusRequest) (d : Decided) (o : RequestOutcome)
    (resp : BusResponse) : InRange (settle r d o resp s) := by
  have units : InRange (settleUnits r d o s) := by
    simpa [InRange, settleUnits] using accountSlots_inRange (requestKind r) s.control.timestamp d _ h
  unfold settle
  split <;> simpa [InRange] using units

/-! ## Configurations in range: the course of a host request -/

theorem requestPort_inRange {s : State} (h : InRange s) (f : Flight) : InRange (requestPort f s) := by
  simpa [InRange] using h

theorem giveResponse_inRange {s : State} (h : InRange s) (r : BusRequest) (resp : BusResponse) :
    InRange (giveResponse r resp s) := by
  simpa [InRange] using h

theorem courseFetched_inRange {s : State} (h : InRange s) (r : BusRequest) (d : Decided) :
    InRange (courseFetched r d s) := by
  unfold courseFetched
  split
  · exact settle_inRange h ..
  · split
    · exact requestPort_inRange h _
    · exact settle_inRange h ..

theorem courseRead_inRange {s : State} (h : InRange s) (r : BusRequest) (d : Decided) : InRange (courseRead r d s) := by
  unfold courseRead
  split
  · exact settle_inRange h ..
  · exact courseFetched_inRange h ..

theorem courseWrite_inRange {s : State} (h : InRange s) (r : BusRequest) (d : Decided) :
    InRange (courseWrite r d s) := by
  unfold courseWrite
  split
  · exact settle_inRange h ..
  · split
    · exact requestPort_inRange h _
    · exact settle_inRange h ..

theorem governActive_inRange {s : State} (h : InRange s) (r : BusRequest) : InRange (governActive r s) := by
  unfold governActive
  split
  · simpa [InRange] using h
  · split
    · exact courseRead_inRange h ..
    · exact courseWrite_inRange h ..

theorem routeRequest_inRange {s : State} (h : InRange s) (r : BusRequest) : InRange (routeRequest r s) := by
  unfold routeRequest
  split
  · exact governActive_inRange h r
  · exact requestPort_inRange h _

theorem presentRequest_inRange {s : State} (h : InRange s) (r : BusRequest) : InRange (presentRequest r s) := by
  unfold presentRequest
  split
  · exact routeRequest_inRange (by simpa [InRange] using h) _
  · exact h

theorem hostAnswered_inRange {s : State} (h : InRange s) (f : Flight) (resp : BusResponse) :
    InRange (hostAnswered f resp s) := by
  have freed (b : Bool) {t : State} (ht : t.table = s.table) : InRange (freePort b t) := by simpa [InRange, ht] using h
  unfold hostAnswered
  split
  · exact giveResponse_inRange (freed false (raise_table _ _)) _ _
  · exact settle_inRange (freed false (raise_table _ _)) ..
  · exact giveResponse_inRange (freed false rfl) _ _
  · exact settle_inRange (freed false rfl) ..

theorem hostTimedOut_inRange {s : State} (h : InRange s) (f : Flight) : InRange (hostTimedOut f s) := by
  have freed : InRange (freePort true (raise .downTimeout s)) := by simpa [InRange] using h
  unfold hostTimedOut
  split
  · exact giveResponse_inRange freed _ _
  · exact settle_inRange freed ..

/-! ## Configurations in range: soft reset and sweep -/

theorem softResetChange_inRange (s : State) : InRange (softResetChange s) := by
  simpa [InRange, softResetChange] using resetTable_inRange

theorem carrySoftReset_inRange {s : State} (h : InRange s) : InRange (carrySoftReset s) := by
  unfold carrySoftReset
  split
  · exact softResetChange_inRange s
  · split
    · exact softResetChange_inRange _
    · exact h

theorem afterOwnEnd_inRange {s : State} (h : InRange s) : InRange (afterOwnEnd s) := by
  unfold afterOwnEnd
  split
  · simpa [InRange] using h
  · simpa [InRange] using h
  · exact softResetChange_inRange s
  · exact h

theorem blockCompleted_inRange {s : State} (h : InRange s) : InRange (blockCompleted s) := by
  unfold blockCompleted
  split
  · exact h
  · split
    · exact afterOwnEnd_inRange (by simpa [InRange] using h)
    · split
      · simpa [InRange] using h
      · simpa [InRange] using h
      · exact softResetChange_inRange s
      · simpa [InRange] using h

theorem blockAnswered_inRange {s : State} (h : InRange s) (r : SweepRecord) (b : Block) (data : List Word) :
    InRange (blockAnswered r b data s) := by
  have completed {t : State} (ht : t.table = s.table) : InRange (blockCompleted (freePort false t)) :=
    blockCompleted_inRange (by simpa [InRange, ht] using h)
  unfold blockAnswered
  split
  · exact completed (by simp)
  · exact completed (by simp)
  · exact completed (by simp)
  · exact completed (by simp)
  · simpa [InRange] using h

theorem blockFailed_inRange {s : State} (h : InRange s) (a : Bool) (c : FailCause) (b : Block) :
    InRange (blockFailed a c b s) := afterOwnEnd_inRange (by simpa [InRange] using h)

theorem sweepAnswered_inRange {s : State} (h : InRange s) (r : SweepRecord) (b : Block) (resp : BusResponse) :
    InRange (sweepAnswered r b resp s) := by
  cases resp with
  | error => exact blockFailed_inRange (by simpa [InRange] using h) ..
  | okay data => exact blockAnswered_inRange h ..

/-! ## Configurations in range: link commands -/

theorem withLink_inRange (l : LinkInterface) : Keeps InRange (·.withLink l) := fun _ h => h

theorem raise_inRange (c : Cause) : Keeps InRange (raise c) := fun _ h => by simpa [InRange] using h

/-- A change that leaves the table keeps its configurations in range. -/
theorem inRange_of_table {f : State → State} (hf : ∀ s, (f s).table = s.table) : Keeps InRange f := fun s h => by
  rw [InRange, hf]; exact h

theorem carry_inRange (b : BoundaryCommand) : Keeps InRange (carry b) := by
  intro s h
  cases b with
  | tableCommit =>
    simp only [carry, carryTableCommit]
    split
    · simpa [InRange] using h
    · simpa [InRange] using h.map commitSlot_inRange
  | slotState slot st =>
    simp only [carry, carrySlotState]
    split
    · simpa [InRange] using h
    · simpa [InRange] using setStatus_inRange h slot _
  | slotAck slot => simpa [InRange, carry, carrySlotAck] using setStatus_inRange h slot _
  | storeWrite offset poison words => simpa [InRange, carry] using h
  | engage => simpa [InRange, carry] using h
  | disengage force => simpa [InRange, carry] using h
  | softReset => exact carrySoftReset_inRange h

theorem boundary_inRange (b : BoundaryCommand) : Keeps InRange (atBoundary b) :=
  atBoundary_keeps withLink_inRange (carry_inRange b)

theorem runSlotStage_inRange (slot : Nat) (f : SlotFields) : Keeps InRange (runSlotStage slot f) := by
  refine onSlot_keeps withLink_inRange slot fun s h => ?_
  split
  next c hc => simpa [InRange] using setSlot_inRange h fun hx => stageSlot_inRange hx (checkSlotFields_inRange hc)
  next => simpa [InRange] using h

theorem runSlotUnstage_inRange (slot : Nat) : Keeps InRange (runSlotUnstage slot) := by
  refine onSlot_keeps withLink_inRange slot fun s h => ?_
  simpa [InRange] using setSlot_inRange h (unstageSlot_inRange slot _)

theorem runTableDiscard_inRange : Keeps InRange runTableDiscard := by
  refine unlessStarting_keeps withLink_inRange fun s h => ?_
  simpa [InRange] using h.map unstageSlot_inRange

theorem runSlotState_inRange (slot state : Nat) : Keeps InRange (runSlotState slot state) := by
  refine onSlot_keeps withLink_inRange slot fun s h => ?_
  split
  · exact boundary_inRange _ h
  · simpa [InRange] using h

theorem runDisengage_inRange (force : Nat) : Keeps InRange (runDisengage force) := by
  refine unlessStarting_keeps withLink_inRange fun s h => ?_
  split
  · exact boundary_inRange _ h
  · simpa [InRange] using h

theorem runStoreWrite_inRange (offset poison : Nat) (words : List Word) :
    Keeps InRange (runStoreWrite offset poison words) := by
  refine unlessStarting_keeps withLink_inRange fun s h => ?_
  split
  · exact boundary_inRange _ h
  · simpa [InRange] using h

theorem runSoftReset_inRange : Keeps InRange runSoftReset := by
  refine unlessStarting_keeps withLink_inRange fun s h => ?_
  unfold takeSoftReset carryAtIdle
  split
  · exact carrySoftReset_inRange (by simpa [InRange] using h)
  · simpa [InRange] using h

/-- A block's meaning that leaves the table, behind the STARTING check. -/
theorem unlessStarting_inRange {f : State → State} (hf : ∀ s, (f s).table = s.table) :
    Keeps InRange (unlessStarting f) := unlessStarting_keeps withLink_inRange (inRange_of_table hf)

/-- The same behind the checks of a start command. -/
theorem checkStart_inRange (inRange : Bool) {f : State → State} (hf : ∀ s, (f s).table = s.table) :
    Keeps InRange (checkStart inRange f) :=
  unlessStarting_inRange fun s => by (repeat' split) <;> simp [hf]

theorem runCommand_inRange (c : Command) : Keeps InRange (runCommand c) := by
  cases c with
  | slotStage slot f => exact runSlotStage_inRange slot f
  | slotUnstage slot => exact runSlotUnstage_inRange slot
  | tableDiscard => exact runTableDiscard_inRange
  | slotState slot state => exact runSlotState_inRange slot state
  | slotAck slot => exact onSlot_keeps withLink_inRange slot (boundary_inRange _)
  | tableCommit => exact unlessStarting_keeps withLink_inRange (boundary_inRange _)
  | engage => exact unlessStarting_keeps withLink_inRange (boundary_inRange _)
  | disengage force => exact runDisengage_inRange force
  | storeWrite offset poison words => exact runStoreWrite_inRange offset poison words
  | softReset => exact runSoftReset_inRange
  | nop => exact inRange_of_table fun s => by simp [runCommand, runNop]
  | partStatus => exact inRange_of_table fun s => by simp [runCommand, runPartStatus]
  | alertStatus => exact inRange_of_table fun s => by simp [runCommand, runAlertStatus]
  | ping echo => exact inRange_of_table fun s => by simp only [runCommand, runPing]; split <;> simp
  | slotRead slot => exact onSlot_keeps withLink_inRange slot (inRange_of_table fun s => by simp)
  | sweepCheck | sweepPush => exact checkStart_inRange _ fun s => startSweep_table _ s
  | sweepFill => exact checkStart_inRange _ fun s => takeSweepFill_table _ _ _ s
  | setConfig | alertAck | captureRead | captureAck | readRaw | readView | writeRaw | writeVerify | storeRead =>
    exact unlessStarting_inRange fun s => by split <;> simp
  | captureFlush | captureInfo | readConfig | lastAccess | sweepSuspend | sweepResume | sweepAbort | sweepStatus =>
    exact unlessStarting_inRange fun s => by simp

theorem considerNext_inRange : Keeps InRange considerNext := considerNext_keeps withLink_inRange runCommand_inRange

/-! ## Configurations in range: events and the bus clock -/

theorem timeoutEvent_inRange : Keeps InRange timeoutEvent := by
  intro s h
  refine considerNext_inRange ?_
  unfold expireTimeout
  split
  · split
    · exact hostTimedOut_inRange h _
    · exact h
  · split
    · simpa [InRange] using h
    · exact h
  · split
    · exact blockFailed_inRange (by simpa [InRange] using h) ..
    · exact h
  · exact h

theorem clockTimeout_inRange : Keeps InRange clockTimeout := by
  intro s h
  unfold clockTimeout
  split
  · exact h
  · split
    · exact timeoutEvent_inRange h
    · exact h

theorem busClock_inRange : Keeps InRange busClock := by
  intro s h
  unfold busClock
  split
  · exact h
  · have expired : InRange (clockTimeout (clockMark (clockClear s))) := clockTimeout_inRange (by simpa [InRange] using h)
    simpa [InRange] using expired

theorem execDownstreamResponse_inRange {s : State} (h : InRange s) (resp : BusResponse) :
    NextIn InRange (execDownstreamResponse resp s) := by
  unfold execDownstreamResponse
  split
  · split
    · exact nextIn_next (hostAnswered_inRange h _ _)
    · exact nextIn_refused _ _
  · exact nextIn_next h

theorem execLinkAccessResponse_inRange {s : State} (h : InRange s) (resp : BusResponse) :
    NextIn InRange (execLinkAccessResponse resp s) := by
  unfold execLinkAccessResponse
  split
  · split
    · exact nextIn_next (considerNext_inRange (by simpa [InRange] using h))
    · exact nextIn_refused _ _
  · exact nextIn_next h

theorem execSweepBlockResponse_inRange {s : State} (h : InRange s) (resp : BusResponse) :
    NextIn InRange (execSweepBlockResponse resp s) := by
  unfold execSweepBlockResponse
  split
  · split
    · exact nextIn_next (considerNext_inRange (sweepAnswered_inRange h ..))
    · exact nextIn_refused _ _
  · exact nextIn_next h

theorem execStoreUpset_inRange {s : State} (h : InRange s) (offset : Nat) (data : Word) :
    NextIn InRange (execStoreUpset offset data s) := by
  unfold execStoreUpset
  split
  · exact nextIn_next h
  · exact nextIn_fault _ _

theorem execHostRequestAccept_inRange {s : State} (h : InRange s) (r : BusRequest) :
    NextIn InRange (execHostRequestAccept r s) := by
  unfold execHostRequestAccept
  split
  · exact nextIn_next (presentRequest_inRange h r)
  · exact nextIn_refused _ _

/-- The rows that are no link command's. -/
theorem execEvent_inRange (i : Instr) (s : State) (hi : i.command = none) (h : InRange s) : NextIn InRange (exec i s) := by
  cases i with
  | powerOnReset => exact nextIn_next (t := powerOnState s) resetTable_inRange
  | resetRelease => exact nextIn_next (t := releaseReset s) h
  | startupClearComplete => exact nextIn_next (t := completeClear s) (by simpa [InRange] using h)
  | fbypAssert => exact nextIn_next (t := assertFbyp s) (by simpa [InRange] using h)
  | fbypRelease => exact nextIn_next (t := s.withPins { s.pins with fbyp := false }) h
  | storeUpset offset data => exact execStoreUpset_inRange h offset data
  | hostRequestAccept r => exact execHostRequestAccept_inRange h r
  | downstreamResponse resp => exact execDownstreamResponse_inRange h resp
  | linkAccessResponse resp => exact execLinkAccessResponse_inRange h resp
  | sweepBlockResponse resp => exact execSweepBlockResponse_inRange h resp
  | downstreamTimeoutExpiry => exact nextIn_next (t := timeoutEvent s) (timeoutEvent_inRange h)
  | holdExpiry => exact nextIn_next (t := endHoldByDrop s) (by simpa [InRange] using h)
  | timestampTick => exact nextIn_next (t := if s.pins.reset then s else tick s) (by split <;> simpa [InRange] using h)
  | markPulseEnd => exact nextIn_next (t := endMark s) h
  | lselAssert => exact nextIn_next (t := assertLsel s) (by simpa [InRange] using h)
  | exchangeEnd ldi =>
    exact nextIn_next (t := considerNext (endExchange ldi (s.withPins { s.pins with lsel := false })))
      (considerNext_inRange (by simpa [InRange] using h))
  | commandStart => exact nextIn_next (t := considerNext s) (considerNext_inRange h)
  | unknownCommand seq code args =>
    have ran := runQueued_keeps withLink_inRange runCommand_inRange ⟨seq, code, args⟩
    exact nextIn_next (t := submit ⟨seq, code, args⟩ (runQueued ⟨seq, code, args⟩) s)
      (submit_keeps withLink_inRange raise_inRange _ ran h)
  | boundaryCommandExecution =>
    exact nextIn_next (t := considerNext (executeBoundary s))
      (considerNext_inRange (executeBoundary_keeps carry_inRange h))
  | _ => cases hi

/-- Settles O4. Configurations come into the table by SLOT_STAGE alone, which checks them; every other step moves them
within a slot, keeps them, or puts the reset configuration in their place. -/
theorem configsStayInRange : Obligations.ConfigsStayInRange := by
  intro s t htable hconfigs hstep
  have hs : InRange s := (tableInRange_iff s).mpr ⟨htable, hconfigs⟩
  have hexec : ∀ (i : Instr) (s : State), InRange s → NextIn InRange (exec i s) := fun i _ =>
    exec_keeps withLink_inRange raise_inRange runCommand_inRange execEvent_inRange i
  exact (tableInRange_iff t).mp (step_keeps (fun _ _ h => h) busClock_inRange hexec hs hstep)

end Sys2Proof.Proofs

namespace Sys2Proof.Proofs

open Sys2Proof.Machine

set_option Elab.async false

/-! ## Stops by name

Every row answers a next state but the five that check their operand: an offset, a request, and the three responses. -/

theorem exec_downstreamResponse_outstanding {s : State} {f : Flight} {resp : BusResponse}
    (hpath : s.forward.path = .outstanding f) (hfits : answers (downstreamRequest f) resp = true) :
    exec (.downstreamResponse resp) s = .next (hostAnswered f resp s) := by
  simp [exec, execDownstreamResponse, hpath, hfits]

theorem exec_downstreamResponse_misfit {s : State} {resp : BusResponse}
    (h : fitsOutstanding (.downstreamResponse resp) s = false) :
    exec (.downstreamResponse resp) s = .refused .notABusResponse := by
  cases hpath : s.forward.path with
  | outstanding f =>
    have hfits : answers (downstreamRequest f) resp = false := by
      simpa [fitsOutstanding, forwardRequest, hpath] using h
    simp [exec, execDownstreamResponse, hpath, hfits]
  | _ => simp [fitsOutstanding, forwardRequest, hpath] at h

theorem exec_downstreamResponse_fits {s : State} {resp : BusResponse}
    (h : fitsOutstanding (.downstreamResponse resp) s = true) : ∃ t, exec (.downstreamResponse resp) s = .next t := by
  cases hpath : s.forward.path with
  | outstanding f =>
    exact ⟨_, exec_downstreamResponse_outstanding hpath (by simpa [fitsOutstanding, forwardRequest, hpath] using h)⟩
  | _ => exact ⟨s, by simp [exec, execDownstreamResponse, hpath]⟩

theorem exec_linkAccessResponse_misfit {s : State} {resp : BusResponse}
    (h : fitsOutstanding (.linkAccessResponse resp) s = false) :
    exec (.linkAccessResponse resp) s = .refused .notABusResponse := by
  cases hacc : s.access with
  | outstanding job =>
    have hfits : answers (jobRequest job) resp = false := by simpa [fitsOutstanding, accessRequest, hacc] using h
    simp [exec, execLinkAccessResponse, hacc, hfits]
  | _ => simp [fitsOutstanding, accessRequest, hacc] at h

theorem exec_linkAccessResponse_fits {s : State} {resp : BusResponse}
    (h : fitsOutstanding (.linkAccessResponse resp) s = true) : ∃ t, exec (.linkAccessResponse resp) s = .next t := by
  cases hacc : s.access with
  | outstanding job =>
    have hfits : answers (jobRequest job) resp = true := by simpa [fitsOutstanding, accessRequest, hacc] using h
    exact ⟨_, by simp only [exec, execLinkAccessResponse, hacc]; exact if_pos hfits⟩
  | _ => exact ⟨s, by simp [exec, execLinkAccessResponse, hacc]⟩

theorem exec_sweepBlockResponse_misfit {s : State} {resp : BusResponse}
    (h : fitsOutstanding (.sweepBlockResponse resp) s = false) :
    exec (.sweepBlockResponse resp) s = .refused .notABusResponse := by
  cases hout : sweepOutstanding s.sweep with
  | none => simp [fitsOutstanding, blockOutstanding, hout] at h
  | some x =>
    have hfits : answers x.2.2 resp = false := by simpa [fitsOutstanding, blockOutstanding, hout] using h
    simp [exec, execSweepBlockResponse, hout, hfits]

theorem exec_sweepBlockResponse_fits {s : State} {resp : BusResponse}
    (h : fitsOutstanding (.sweepBlockResponse resp) s = true) : ∃ t, exec (.sweepBlockResponse resp) s = .next t := by
  cases hout : sweepOutstanding s.sweep with
  | none => exact ⟨s, by simp [exec, execSweepBlockResponse, hout]⟩
  | some x =>
    have hfits : answers x.2.2 resp = true := by simpa [fitsOutstanding, blockOutstanding, hout] using h
    exact ⟨_, by simp only [exec, execSweepBlockResponse, hout]; exact if_pos hfits⟩

theorem exec_storeUpset_outside {offset : Nat} (data : Word) (s : State) (h : Config.storeWords ≤ offset) :
    exec (.storeUpset offset data) s = .fault .noSuchStoreWord := if_neg (Nat.not_lt.mpr h)

theorem exec_hostRequestAccept_illFormed {r : BusRequest} (s : State) (h : r.wellFormed = false) :
    exec (.hostRequestAccept r) s = .refused .notABusRequest := by
  simp [exec, execHostRequestAccept, h]

theorem exec_hostRequestAccept_wellFormed {r : BusRequest} (s : State) (h : r.wellFormed = true) :
    exec (.hostRequestAccept r) s = .next (presentRequest r s) := by
  simp [exec, execHostRequestAccept, h]

/-- A row answers a next state where its operand is one that its port and the store can carry. -/
theorem exec_completes {c : Instr} {s : State} (hw : c.wellFormed = true) (hf : fitsOutstanding c s = true) :
    ∃ t, exec c s = .next t := by
  cases c with
  | storeUpset offset data => exact ⟨_, if_pos (of_decide_eq_true hw)⟩
  | hostRequestAccept r => exact ⟨_, exec_hostRequestAccept_wellFormed s hw⟩
  | downstreamResponse resp => exact exec_downstreamResponse_fits hf
  | linkAccessResponse resp => exact exec_linkAccessResponse_fits hf
  | sweepBlockResponse resp => exact exec_sweepBlockResponse_fits hf
  | _ => exact ⟨_, rfl⟩

/-- Settles O2. Of the 54 rows only the five that check an operand can stop. -/
theorem commandsCompleteOrStopByName : Obligations.CommandsCompleteOrStopByName :=
  ⟨fun _ _ hw hf => exec_completes hw hf, fun _ data s h => exec_storeUpset_outside data s h,
    fun _ s h => exec_hostRequestAccept_illFormed s h, fun _ _ h => exec_downstreamResponse_misfit h,
    fun _ _ h => exec_linkAccessResponse_misfit h, fun _ _ h => exec_sweepBlockResponse_misfit h⟩

end Sys2Proof.Proofs

namespace Sys2Proof.Proofs

open Sys2Proof.Machine

set_option Elab.async false

/-! ## What the shared operations leave a host request

Causes only grow until the link interface acknowledges them, and the freeing of the port touches neither a request that
holds the path nor what the match unit counts. -/

/-- No pending cause is lost (R179). -/
def CausesGrow (s t : State) : Prop := ∀ c, hasCause s.control.causes c = true → hasCause t.control.causes c = true

theorem CausesGrow.trans {s t u : State} (h₁ : CausesGrow s t) (h₂ : CausesGrow t u) : CausesGrow s u :=
  fun c h => h₂ c (h₁ c h)

theorem causesGrow_of_control {s t : State} (h : t.control = s.control) : CausesGrow s t := fun _ hc => by rwa [h]

theorem causesGrow_raise (c : Cause) (s : State) : CausesGrow s (raise c s) := fun d h => by
  rw [hasCause_raise, h, Bool.true_or]

theorem hasCause_raised (c : Cause) (s : State) : hasCause (raise c s).control.causes c = true := by
  rw [hasCause_raise, decide_eq_true rfl, Bool.or_true]

theorem causesGrow_checkLevel (s : State) : CausesGrow s (checkLevel s) := by
  unfold checkLevel
  split
  · exact causesGrow_raise _ s
  · exact fun _ h => h

theorem causesGrow_sampleFbyp (s : State) : CausesGrow s (sampleFbyp s) := by
  unfold sampleFbyp
  split
  · exact causesGrow_raise _ _
  · exact fun _ h => h

theorem causesGrow_giveResponse (r : BusRequest) (resp : BusResponse) (s : State) :
    CausesGrow s (giveResponse r resp s) := by
  intro c h
  rw [giveResponse_control]
  exact causesGrow_sampleFbyp s c h

theorem causesGrow_admitRecord (o : CaptureOffer) (s : State) : CausesGrow s (admitRecord o s) := fun c h =>
  causesGrow_checkLevel (s.withCapture _) c h

theorem causesGrow_dropRecord (s : State) : CausesGrow s (dropRecord s) := causesGrow_raise _ _

theorem hasCause_dropRecord (s : State) : hasCause (dropRecord s).control.causes .captureLoss = true :=
  hasCause_raised _ _

/-- The sampling of FBYP changes neither the configuration set nor the time. -/
theorem sampleFbyp_config (s : State) : (sampleFbyp s).control.config = s.control.config := by
  rw [sampleFbyp_control]; split <;> rfl

theorem sampleFbyp_congr {s t : State} (hp : t.pins = s.pins) (hc : t.control = s.control) :
    (sampleFbyp t).control = (sampleFbyp s).control := by
  rw [sampleFbyp_control, sampleFbyp_control, hp, hc]

theorem admitRecord_timestamp (o : CaptureOffer) (s : State) :
    (admitRecord o s).control.timestamp = s.control.timestamp := by
  rw [admitRecord, checkLevel_control]; split <;> rfl

/-! ### The freed port -/

/-- A grant moves the path on where a request waits there, and otherwise leaves it (R114). -/
theorem grant_forward {s : State} (h : ∀ f, s.forward.path ≠ .waitGrant f) (r : Requester) :
    (grant r s).forward = s.forward := by
  cases r with
  | forward =>
    rw [grant, issueForward_forward]
    split
    · exact absurd ‹_› (h _)
    · rfl
  | link => simp [grant]
  | sweep => simp [grant]

theorem freePort_forward {s : State} (h : ∀ f, s.forward.path ≠ .waitGrant f) (b : Bool) :
    (freePort b s).forward = s.forward := by
  unfold freePort decideGrant
  split
  · rw [grant_forward (by exact h)]; rfl
  · rfl

theorem issueReported_aborted (r : BusRequest) (s : State) : (issueReported r s).port.aborted = s.port.aborted := by
  rw [issueReported_port, issue_port]

theorem issueForward_aborted (s : State) : (issueForward s).port.aborted = s.port.aborted := by
  unfold issueForward
  split
  · exact issueReported_aborted _ _
  · rfl

theorem issueLink_aborted (s : State) : (issueLink s).port.aborted = s.port.aborted := by
  unfold issueLink
  split
  · exact issueReported_aborted _ _
  · rfl

theorem issueSweep_aborted (s : State) : (issueSweep s).port.aborted = s.port.aborted := by
  unfold issueSweep
  split
  · split <;> rfl
  · rfl

theorem grant_aborted (r : Requester) (s : State) : (grant r s).port.aborted = s.port.aborted := by
  cases r with
  | forward => exact issueForward_aborted _
  | link => exact issueLink_aborted _
  | sweep => exact issueSweep_aborted _

/-- The abort indication says how the request ended, whatever the grant decision then issues (R26). -/
theorem freePort_aborted (b : Bool) (s : State) : (freePort b s).port.aborted = b := by
  unfold freePort decideGrant
  split
  · rw [grant_aborted]; rfl
  · rfl

/-! ### What the match unit counts from

Two states count alike where their tables and pins are equal and every cause of the one is pending in the other. -/

/-- The match unit's part of a settle takes the same course from `t` as from `s` (R77). -/
structure CountsAlike (s t : State) : Prop where
  table : t.table = s.table
  pins : t.pins = s.pins
  causes : CausesGrow s t

namespace CountsAlike

variable {s t : State} (h : CountsAlike s t)
include h

theorem slot (i : Nat) : t.slot i = s.slot i := congrArg (slotAt · i) h.table

theorem raise (c : Cause) : CountsAlike (raise c s) (raise c t) where
  table := h.table
  pins := h.pins
  causes d hd := by
    rw [hasCause_raise, Bool.or_eq_true] at hd ⊢
    exact hd.imp_left (h.causes d)

theorem setStatus (i : Nat) (x : SlotStatus) : CountsAlike (s.setStatus i x) (t.setStatus i x) where
  table := by rw [State.setStatus_table, State.setStatus_table, h.slot, h.table]
  pins := h.pins
  causes := h.causes

theorem pulseMark : CountsAlike (pulseMark s) (pulseMark t) where
  table := h.table
  pins := congrArg (fun p : Pins => { p with markLeft := Config.markClocks }) h.pins
  causes := h.causes

theorem reportHandoff (c : SlotConfig) : CountsAlike (reportHandoff c s) (reportHandoff c t) where
  table := by simp [h.table]
  pins := by simp [h.pins]
  causes d hd := by
    rw [reportHandoff_control] at hd ⊢
    exact h.causes d hd

theorem spend (i : Nat) : CountsAlike (spend i s) (spend i t) := by
  unfold Machine.spend
  rw [h.slot]
  exact h.setStatus _ _

theorem handOff (i j : Nat) : CountsAlike (handOff i j s) (handOff i j t) := by
  unfold Machine.handOff
  rw [h.slot, h.slot]
  split
  · exact (h.setStatus _ _).reportHandoff _
  · exact (h.setStatus _ _).raise _

theorem limitAction (i : Nat) : CountsAlike (limitAction i s) (limitAction i t) := by
  unfold Machine.limitAction
  rw [h.slot]
  split
  · exact h
  · exact h.spend i
  · exact (h.spend i).handOff i _

theorem noteLost (x : SlotStatus) : CountsAlike (noteLost x s) (noteLost x t) := by
  unfold Machine.noteLost
  split
  · exact h.raise _
  · exact h

theorem noteAlert (c : SlotConfig) : CountsAlike (noteAlert c s) (noteAlert c t) := by
  unfold Machine.noteAlert
  split
  · exact h.raise _
  · exact h

theorem noteMark (c : SlotConfig) : CountsAlike (noteMark c s) (noteMark c t) := by
  unfold Machine.noteMark
  split
  · exact h.pulseMark
  · exact h

theorem noteLimit (i : Nat) (x : Slot) : CountsAlike (noteLimit i x s) (noteLimit i x t) := by
  unfold Machine.noteLimit
  split
  · exact (h.raise _).limitAction i
  · exact h

theorem accountHit (k : Kind) (ts : Word) (i a : Nat) :
    CountsAlike (accountHit k ts i a s) (accountHit k ts i a t) := by
  unfold Machine.accountHit accountHitOf
  rw [h.slot]
  exact ((((h.noteLost _).setStatus i _).noteAlert _).noteMark _).noteLimit i _

theorem flagFault (i : Nat) : CountsAlike (flagFault i s) (flagFault i t) := by
  unfold Machine.flagFault
  rw [h.slot]
  exact (h.setStatus _ _).raise _

theorem accountFault (d : Decided) (i : Nat) : CountsAlike (accountFault d i s) (accountFault d i t) := by
  unfold Machine.accountFault
  split
  · split
    · exact (h.flagFault i).spend i
    · exact h.flagFault i
  · exact h

omit h in
theorem accountSlots (k : Kind) (ts : Word) (d : Decided) (hits : List (Nat × Nat)) {s t : State}
    (h : CountsAlike s t) : CountsAlike (accountSlots k ts d hits s) (accountSlots k ts d hits t) := by
  induction hits generalizing s t with
  | nil => exact h
  | cons p rest ih => exact ih ((h.accountHit k ts p.1 p.2).accountFault d p.1)

end CountsAlike

/-! ### What a count keeps

The match unit's part of a settle is made of four changes: a cause raised, a slot's status replaced, the MARK pulse begun,
and the report of a hand-off. -/

section
variable {P : State → Prop} (hraise : ∀ c, Keeps P (raise c)) (hstatus : ∀ i x, Keeps P (·.setStatus i x))
  (hmark : Keeps P pulseMark) (hreport : ∀ c, Keeps P (reportHandoff c))
include hraise hstatus hreport

theorem handOff_keeps (i j : Nat) : Keeps P (handOff i j) := by
  intro s hs
  unfold handOff
  split
  · exact hreport _ (hstatus _ _ hs)
  · exact hraise _ (hstatus _ _ hs)

theorem limitAction_keeps (i : Nat) : Keeps P (limitAction i) := by
  intro s hs
  unfold limitAction
  split
  · exact hs
  · exact hstatus _ _ hs
  · exact handOff_keeps hraise hstatus hreport _ _ (hstatus _ _ hs)

theorem noteLimit_keeps (i : Nat) (x : Slot) : Keeps P (noteLimit i x) := by
  intro s hs
  unfold noteLimit
  split
  · exact limitAction_keeps hraise hstatus hreport i (hraise _ hs)
  · exact hs

omit hstatus hreport in
theorem noteLost_keeps (x : SlotStatus) : Keeps P (noteLost x) := by
  intro s hs
  unfold noteLost
  split
  · exact hraise _ hs
  · exact hs

omit hstatus hreport in
theorem noteAlert_keeps (c : SlotConfig) : Keeps P (noteAlert c) := by
  intro s hs
  unfold noteAlert
  split
  · exact hraise _ hs
  · exact hs

omit hreport in
theorem accountFault_keeps (d : Decided) (i : Nat) : Keeps P (accountFault d i) := by
  intro s hs
  unfold accountFault
  split
  · split
    · exact hstatus _ _ (hraise _ (hstatus _ _ hs))
    · exact hraise _ (hstatus _ _ hs)
  · exact hs

include hmark

theorem accountHit_keeps (k : Kind) (ts : Word) (i a : Nat) : Keeps P (accountHit k ts i a) := by
  intro s hs
  have traced : P (noteAlert (s.slot i).active
      ((noteLost (s.slot i).status s).setStatus i (countHit k ts a (s.slot i).status))) :=
    noteAlert_keeps hraise _ (hstatus _ _ (noteLost_keeps hraise _ hs))
  refine noteLimit_keeps hraise hstatus hreport i _ ?_
  unfold noteMark
  split
  · exact hmark traced
  · exact traced

theorem accountSlots_keeps (k : Kind) (ts : Word) (d : Decided) (hits : List (Nat × Nat)) :
    Keeps P (accountSlots k ts d hits) := by
  induction hits with
  | nil => exact fun _ hs => hs
  | cons p rest ih =>
    exact fun _ hs => ih (accountFault_keeps hraise hstatus d p.1
      (accountHit_keeps hraise hstatus hmark hreport k ts p.1 p.2 hs))

end

/-- No raised cause and no count loses a pending cause. -/
theorem causesGrow_accountSlots (k : Kind) (ts : Word) (d : Decided) (hits : List (Nat × Nat)) (s : State) :
    CausesGrow s (accountSlots k ts d hits s) :=
  accountSlots_keeps (P := CausesGrow s) (fun c _ h => h.trans (causesGrow_raise c _)) (fun _ _ _ h => h) (fun _ h => h)
    (fun _ _ h => h.trans (causesGrow_of_control (reportHandoff_control _ _))) k ts d hits (fun _ h => h)

/-- The control units differ in their causes alone. -/
def SameSettings (s t : State) : Prop := ∃ causes, t.control = { s.control with causes := causes }

/-- A count leaves the control unit but for the causes (R179). -/
theorem sameSettings_accountSlots (k : Kind) (ts : Word) (d : Decided) (hits : List (Nat × Nat)) (s : State) :
    SameSettings s (accountSlots k ts d hits s) :=
  accountSlots_keeps (P := SameSettings s) (fun _ _ ⟨_, h⟩ => ⟨_, by rw [raise_control, h]⟩) (fun _ _ _ h => h)
    (fun _ h => h) (fun _ _ ⟨_, h⟩ => ⟨_, by rw [reportHandoff_control, h]⟩) k ts d hits ⟨_, rfl⟩

theorem SameSettings.config {s t : State} (h : SameSettings s t) : t.control.config = s.control.config := by
  obtain ⟨_, h⟩ := h; rw [h]

theorem SameSettings.timestamp {s t : State} (h : SameSettings s t) : t.control.timestamp = s.control.timestamp := by
  obtain ⟨_, h⟩ := h; rw [h]

/-! ### The settle -/

/-- The store that shadow writes leave depends on the store that they find alone (R66). -/
theorem shadowWrites_store_congr (snap : List SnapSlot) (ws : List (WordDecision × WriteWord)) {s t : State}
    (h : t.store = s.store) : (shadowWrites snap ws t).store = (shadowWrites snap ws s).store := by
  induction ws generalizing s t with
  | nil => exact h
  | cons p rest ih =>
    unfold shadowWrites
    split
    · split
      · exact ih (by simp [h])
      · exact ih h
    · exact ih h

/-- A settle from `t` leaves what it leaves from `s`: the match unit counts alike, and the store, the capture unit, the
link interface, the configuration set and the time are the same. -/
structure SettlesAlike (s t : State) : Prop extends CountsAlike s t where
  store : t.store = s.store
  capture : t.capture = s.capture
  link : t.link = s.link
  config : t.control.config = s.control.config
  timestamp : t.control.timestamp = s.control.timestamp

theorem SettlesAlike.refl (s : State) : SettlesAlike s s := ⟨⟨rfl, rfl, fun _ h => h⟩, rfl, rfl, rfl, rfl, rfl⟩

theorem SettlesAlike.raise {s t : State} (h : SettlesAlike s t) (c : Cause) : SettlesAlike s (raise c t) :=
  ⟨⟨h.table, h.pins, h.causes.trans (causesGrow_raise c t)⟩, h.store, h.capture, h.link, h.config, h.timestamp⟩

theorem SettlesAlike.freePort {s t : State} (h : SettlesAlike s t) (b : Bool) : SettlesAlike s (freePort b t) where
  table := by simp [h.table]
  pins := by simp [h.pins]
  causes := h.causes.trans (causesGrow_of_control (freePort_control b t))
  store := by simp [h.store]
  capture := by simp [h.capture]
  link := by simp [h.link]
  config := by simp [h.config]
  timestamp := by simp [h.timestamp]

theorem SettlesAlike.withForward {s t : State} (h : SettlesAlike s t) (f : Forwarding) :
    SettlesAlike s (t.withForward f) := ⟨⟨h.table, h.pins, h.causes⟩, h.store, h.capture, h.link, h.config, h.timestamp⟩

/-! ### The offer -/

theorem takeOffer_admits {r : BusRequest} {resp : BusResponse} {o : CaptureOffer} {s : State}
    (h : s.capture.queue.length < 64) : takeOffer r resp o s = giveResponse r resp (admitRecord o s) := if_pos h

theorem level_full {s : State} (h : 64 ≤ s.capture.queue.length) : ¬ level s < Config.captureDepth :=
  Nat.not_lt.mpr h

theorem takeOffer_drops {r : BusRequest} {resp : BusResponse} {o : CaptureOffer} {s : State}
    (h : 64 ≤ s.capture.queue.length) (hp : s.control.config.policy = .drop) :
    takeOffer r resp o s = giveResponse r resp (dropRecord s) := by
  rw [takeOffer, if_neg (level_full h), hp]

theorem takeOffer_holds {r : BusRequest} {resp : BusResponse} {o : CaptureOffer} {s : State}
    (h : 64 ≤ s.capture.queue.length) (hp : s.control.config.policy = .hold) (hw : softResetWaits s = false) :
    takeOffer r resp o s = beginHold r resp o s := by
  rw [takeOffer, if_neg (level_full h), hp, hw]; rfl

/-- A hold that a waiting SOFT_RESET meets ends at once (R173). -/
theorem takeOffer_ends {r : BusRequest} {resp : BusResponse} {o : CaptureOffer} {s : State}
    (h : 64 ≤ s.capture.queue.length) (hp : s.control.config.policy = .hold) (hw : softResetWaits s = true) :
    takeOffer r resp o s = giveResponse r resp (dropRecord (clearHeld (beginHold r resp o s))) := by
  rw [takeOffer, if_neg (level_full h), hp, hw]; rfl

/-- What the capture unit makes of an offer, in the four cases of R95 and R173. -/
theorem takeOffer_offered (r : BusRequest) (resp : BusResponse) (o : CaptureOffer) (s : State) :
    Offered r resp o s (takeOffer r resp o s) := by
  refine ⟨fun h => ?_, fun h hp => ?_, fun h hp hw => ?_, fun h hp hw => ?_⟩
  · rw [takeOffer_admits h, giveResponse_capture, admitRecord_capture]
  · rw [takeOffer_drops h hp, giveResponse_capture, dropRecord_capture]
    exact ⟨causesGrow_giveResponse _ _ _ _ (hasCause_dropRecord s), rfl⟩
  · rw [takeOffer_holds h hp hw]
    exact ⟨rfl, rfl⟩
  · rw [takeOffer_ends h hp hw, giveResponse_capture, giveResponse_forward, dropRecord_capture]
    exact ⟨rfl, causesGrow_giveResponse _ _ _ _ (hasCause_dropRecord _), rfl⟩

/-- The response has been given at a time, with its last-access record, or it is held (R39, R43). -/
def Responded (r : BusRequest) (resp : BusResponse) (ts : Word) (f : Forwarding) : Prop :=
  (f.path = .idle ∧ f.given = some resp ∧ f.lastAccess = some (lastAccessOf r resp ts)) ∨ f.path = .held ⟨r, resp⟩

theorem giveResponse_responded (r : BusRequest) (resp : BusResponse) {ts : Word} {s : State}
    (h : s.control.timestamp = ts) : Responded r resp ts (giveResponse r resp s).forward := by
  rw [giveResponse_forward, ← h]
  exact .inl ⟨rfl, rfl, rfl⟩

theorem takeOffer_responded (r : BusRequest) (resp : BusResponse) (o : CaptureOffer) (s : State) :
    Responded r resp s.control.timestamp (takeOffer r resp o s).forward := by
  rcases Nat.lt_or_ge s.capture.queue.length 64 with h | h
  · rw [takeOffer_admits h]
    exact giveResponse_responded r resp (admitRecord_timestamp o s)
  · cases hp : s.control.config.policy with
    | drop =>
      rw [takeOffer_drops h hp]
      exact giveResponse_responded r resp rfl
    | hold =>
      cases hw : softResetWaits s with
      | false => rw [takeOffer_holds h hp hw]; exact .inr rfl
      | true => rw [takeOffer_ends h hp hw]; exact giveResponse_responded r resp rfl

theorem causesGrow_takeOffer (r : BusRequest) (resp : BusResponse) (o : CaptureOffer) (s : State) :
    CausesGrow s (takeOffer r resp o s) := by
  rcases Nat.lt_or_ge s.capture.queue.length 64 with h | h
  · rw [takeOffer_admits h]
    exact (causesGrow_admitRecord o s).trans (causesGrow_giveResponse r resp _)
  · cases hp : s.control.config.policy with
    | drop =>
      rw [takeOffer_drops h hp]
      exact (causesGrow_dropRecord s).trans (causesGrow_giveResponse r resp _)
    | hold =>
      cases hw : softResetWaits s with
      | false => rw [takeOffer_holds h hp hw]; exact fun _ hc => hc
      | true =>
        rw [takeOffer_ends h hp hw]
        exact (causesGrow_dropRecord (clearHeld (beginHold r resp o s))).trans (causesGrow_giveResponse r resp _)

/-- An offer depends on the capture unit, the configuration set and the link interface alone (R95, R173). -/
theorem offered_congr {r : BusRequest} {resp : BusResponse} {o : CaptureOffer} {s u t : State}
    (hcapture : u.capture = s.capture) (hconfig : u.control.config = s.control.config) (hlink : u.link = s.link)
    (h : Offered r resp o u t) : Offered r resp o s t := by
  have hwaits : softResetWaits u = softResetWaits s := by rw [softResetWaits, softResetWaits, hlink]
  rw [Offered, hcapture, hconfig, hwaits] at h
  exact h

/-! ### The settle as a whole -/

theorem sameSettings_settleUnits (r : BusRequest) (d : Decided) (o : RequestOutcome) (s : State) :
    SameSettings s (settleUnits r d o s) := by
  obtain ⟨causes, h⟩ :=
    sameSettings_accountSlots (requestKind r) s.control.timestamp d (countingSet (requestKind r) o d) s
  exact ⟨causes, by rw [settleUnits, settleStore_control, h]⟩

@[simp] theorem settle_table (r : BusRequest) (d : Decided) (o : RequestOutcome) (resp : BusResponse) (s : State) :
    (settle r d o resp s).table =
      (accountSlots (requestKind r) s.control.timestamp d (countingSet (requestKind r) o d) s).table := by
  unfold settle; split <;> simp [settleUnits]

@[simp] theorem settle_pins (r : BusRequest) (d : Decided) (o : RequestOutcome) (resp : BusResponse) (s : State) :
    (settle r d o resp s).pins =
      (accountSlots (requestKind r) s.control.timestamp d (countingSet (requestKind r) o d) s).pins := by
  unfold settle; split <;> simp [settleUnits]

/-- The causes of a settle are at least those that the match unit raises (R38). -/
theorem causesGrow_settle (r : BusRequest) (d : Decided) (o : RequestOutcome) (resp : BusResponse) (s : State) :
    CausesGrow (accountSlots (requestKind r) s.control.timestamp d (countingSet (requestKind r) o d) s)
      (settle r d o resp s) := by
  have units := causesGrow_of_control (settleStore_control r o d
    (accountSlots (requestKind r) s.control.timestamp d (countingSet (requestKind r) o d) s))
  unfold settle
  split
  · exact units.trans (causesGrow_giveResponse r resp _)
  · exact units.trans (causesGrow_takeOffer r resp _ _)

/-- A settle loses no pending cause. -/
theorem causesGrow_settled (r : BusRequest) (d : Decided) (o : RequestOutcome) (resp : BusResponse) (s : State) :
    CausesGrow s (settle r d o resp s) :=
  (causesGrow_accountSlots _ _ d _ s).trans (causesGrow_settle r d o resp s)

/-- The shadow writes of a settle start from the store that the request found (R66). -/
theorem settle_store_okay (r : BusRequest) (d : Decided) (o : RequestOutcome) (resp : BusResponse) (s : State) :
    (settle r d o resp s).store =
      if o = .okay then (shadowWrites d.snapshot (d.words.zip (requestWords r)) s).store else s.store := by
  rw [settle_store, settleUnits, settleStore]
  split
  · exact shadowWrites_store_congr _ _ (accountSlots_store _ _ d _ s)
  · exact accountSlots_store _ _ d _ s

theorem settle_responded (r : BusRequest) (d : Decided) (o : RequestOutcome) (resp : BusResponse) (s : State) :
    Responded r resp s.control.timestamp (settle r d o resp s).forward := by
  have hts := (sameSettings_settleUnits r d o s).timestamp
  unfold settle
  split
  · exact giveResponse_responded r resp hts
  · rw [← hts]
    exact takeOffer_responded r resp _ _

theorem settle_of_unlisted {r : BusRequest} {d : Decided} {o : RequestOutcome}
    (h : listedSlots d (countingSet (requestKind r) o d) = []) (resp : BusResponse) (s : State) :
    settle r d o resp s = giveResponse r resp (settleUnits r d o s) := by
  simp [settle, h]

theorem settle_of_listed {r : BusRequest} {d : Decided} {o : RequestOutcome}
    (h : listedSlots d (countingSet (requestKind r) o d) ≠ []) (resp : BusResponse) (s : State) :
    settle r d o resp s = takeOffer r resp (settleOffer r d o resp s.control.timestamp) (settleUnits r d o s) := by
  simp [settle, h]

/-- A settle does what R37 to R39 say, from every state that counts, stores and offers like the one it is told of. -/
theorem settle_settled {s u : State} (h : SettlesAlike s u) (r : BusRequest) (d : Decided) (o : RequestOutcome)
    (resp : BusResponse) : Settled r d o resp s (settle r d o resp u) := by
  have counted := h.toCountsAlike.accountSlots (requestKind r) s.control.timestamp d (countingSet (requestKind r) o d)
  have settings := sameSettings_settleUnits r d o u
  have responded := settle_responded r d o resp u
  rw [h.timestamp] at responded
  refine ⟨?_, ?_, fun c hc => causesGrow_settle r d o resp u c ?_, ?_, fun hl => ?_, fun hl => ?_,
    responded.imp_left fun ⟨hidle, hgiven, _⟩ => ⟨hidle, hgiven⟩, fun hi => ?_⟩
  · rw [settle_table, h.timestamp, counted.table]
  · rw [settle_pins, h.timestamp, counted.pins]
  · rw [h.timestamp]
    exact counted.causes c hc
  · rw [settle_store_okay, shadowWrites_store_congr _ _ h.store, h.store]
  · rw [settle_of_unlisted hl, giveResponse_capture, giveResponse_forward, settleUnits_capture, h.capture]
    exact ⟨rfl, rfl⟩
  · rw [settle_of_listed hl, h.timestamp]
    exact offered_congr (by simp [h.capture]) (settings.config.trans h.config) (by simp [h.link])
      (takeOffer_offered r resp _ _)
  · rcases responded with ⟨_, _, hlast⟩ | hheld
    · exact hlast
    · exact nomatch hi.symm.trans hheld

end Sys2Proof.Proofs

namespace Sys2Proof.Proofs

open Sys2Proof.Machine

set_option Elab.async false

/-! ## The memory's answer and the timeout of a host request -/

/-- A path that has its request outstanding does not wait for a grant. -/
theorem not_waiting_of_outstanding {s : State} {f : Flight} (h : s.forward.path = .outstanding f) (g : Flight) :
    s.forward.path ≠ .waitGrant g := by
  rw [h]; nofun

/-- The host is given the memory's answer to a request that is forwarded unchanged, after the port is freed (R40). -/
theorem hostAnswered_forwarded (r : BusRequest) (p : PartState) (resp : BusResponse) (s : State) :
    hostAnswered ⟨r, p, none⟩ resp s =
      giveResponse r resp (freePort false (if resp = .error then raise .downError s else s)) := by
  cases resp <;> rfl

/-- The answer given after the freeing of the port stands on the path as it was (R40, R43). -/
theorem giveResponse_freePort_forward {s : State} {f : Flight} (h : s.forward.path = .outstanding f) (r : BusRequest)
    (resp : BusResponse) (b : Bool) :
    (giveResponse r resp (freePort b s)).forward =
      { s.forward with
        path := .idle
        lastAccess := some (lastAccessOf r resp s.control.timestamp)
        given := some resp } := by
  rw [giveResponse_forward, freePort_forward (not_waiting_of_outstanding h), freePort_control]

theorem downstreamRequest_forwarded (r : BusRequest) (p : PartState) : downstreamRequest ⟨r, p, none⟩ = r := by
  cases r <;> rfl

theorem lastAccessOf_write (a : Nat) (ws : List WriteWord) (resp : BusResponse) (ts : Word) :
    lastAccessOf (.write a ws) resp ts =
      { kind := .write, addr := a, len := ws.length, firstWord := ws.head?.map (·.data)
        okay := decide (resp ≠ .error), timestamp := ts } := by
  cases resp <;> rfl

/-- With no other requester waiting, the port that the request held is free afterwards (R117). -/
theorem giveResponse_freePort_free {s : State} (h : NobodyWaits s.arbiter) (r : BusRequest) (resp : BusResponse)
    (b : Bool) :
    (giveResponse r resp (freePort b s)).port = { outstanding := none, aborted := b } ∧
      (giveResponse r resp (freePort b s)).arbiter = { s.arbiter with owner := none } ∧
      (giveResponse r resp (freePort b s)).access = s.access ∧ (giveResponse r resp (freePort b s)).sweep = s.sweep := by
  rw [freePort_of_none_waiting b h]
  simp

/-- Settles O19. -/
theorem memoryAnswersForwardedRequest : Obligations.MemoryAnswersForwardedRequest := by
  refine ⟨fun _ _ _ _ => rfl, fun _ _ _ => rfl, lastAccessOf_write, fun s r p resp hpath hfits => ?_⟩
  have hexec := exec_downstreamResponse_outstanding hpath (by rwa [downstreamRequest_forwarded])
  rw [hostAnswered_forwarded] at hexec
  refine ⟨_, hexec, ?_⟩
  cases resp with
  | error =>
    refine ⟨giveResponse_freePort_forward (s := raise .downError s) hpath _ _ _, by simp, by simp, by simp, by simp,
      by simp, fun _ => ?_, fun h => absurd rfl h, fun h => ?_⟩
    · refine causesGrow_giveResponse _ _ _ _ ?_
      rw [freePort_control]
      exact hasCause_raised _ s
    · exact giveResponse_freePort_free (s := raise .downError s) h r .error false
  | okay data =>
    refine ⟨giveResponse_freePort_forward hpath _ _ _, by simp, by simp, by simp, by simp, by simp, nofun, fun _ => ?_,
      fun h => giveResponse_freePort_free h r (.okay data) false⟩
    rw [giveResponse_control]
    exact sampleFbyp_congr (freePort_pins _ _) (freePort_control _ _)

/-- With no other requester waiting, a settle after the freeing of the port leaves it free (R117). -/
theorem settle_freePort_free {s : State} (h : NobodyWaits s.arbiter) (r : BusRequest) (d : Decided) (o : RequestOutcome)
    (resp : BusResponse) (b : Bool) :
    (settle r d o resp (freePort b s)).port = { outstanding := none, aborted := b } ∧
      (settle r d o resp (freePort b s)).arbiter.owner = none := by
  rw [settle_port, settle_arbiter, freePort_of_none_waiting b h]
  exact ⟨rfl, rfl⟩

/-- The settle of a request that the memory failed, by ERROR or by a timeout, after the cause is raised and the port is
freed (R35, R36). -/
theorem failure_settled (r : BusRequest) (d : Decided) {o : RequestOutcome} (c : Cause) (b : Bool) (s : State) :
    Settled r d o .error s (settle r d o .error (freePort b (raise c s))) :=
  settle_settled (((SettlesAlike.refl s).raise c).freePort b) r d o .error

theorem failure_raises (r : BusRequest) (d : Decided) (o : RequestOutcome) (c : Cause) (b : Bool) (s : State) :
    hasCause (settle r d o .error (freePort b (raise c s))).control.causes c = true := by
  refine causesGrow_settled r d o .error _ c ?_
  rw [freePort_control]
  exact hasCause_raised c s

/-- Settles O20. -/
theorem memoryAnswerSettlesRequest : Obligations.MemoryAnswerSettlesRequest := by
  refine fun s r p d hpath => ⟨?_, fun data hfits => ?_⟩
  · have hsettled := failure_settled r d (o := .memError) .downError false s
    have ⟨_, _, _, hstore, _, _, hresponded, _⟩ := hsettled
    refine ⟨_, exec_downstreamResponse_outstanding hpath rfl, hresponded, hsettled,
      failure_raises r d .memError .downError false s, hstore, by simp, fun h => ?_⟩
    exact settle_freePort_free (s := raise .downError s) h r d .memError .error false
  · have hsettled := settle_settled ((SettlesAlike.refl s).freePort false) r d .okay (okayResponse r d data)
    have ⟨_, _, _, hstore, _, _, hresponded, _⟩ := hsettled
    exact ⟨_, exec_downstreamResponse_outstanding hpath hfits, hresponded, hsettled, hstore, by simp [hostAnswered],
      fun h => settle_freePort_free h r d .okay _ false⟩

/-- Where no startable command waits, none starts as long as the link interface stays (R158). -/
theorem mayStart_of_link {s t : State} (h : StartSound s) (hlink : t.link = s.link) : mayStart t = false := by
  cases hr : t.pins.reset with
  | true => simp [mayStart, hr]
  | false => exact mayStart_of_startSound ⟨hlink ▸ h.1, fun hreset => nomatch hr.symm.trans hreset⟩

/-- A timeout of the host's request completes no link command, so that none starts (R118, R158). -/
theorem exec_timeout_of_host {s : State} {f : Flight} (hpath : s.forward.path = .outstanding f)
    (howner : s.arbiter.owner = some .forward) (hstart : StartSound s) :
    exec .downstreamTimeoutExpiry s = .next (hostTimedOut f s) := by
  have hexpire : expireTimeout s = hostTimedOut f s := by simp [expireTimeout, howner, hpath]
  show Host.Outcome.next (considerNext (expireTimeout s)) = _
  rw [hexpire, considerNext_of_not (mayStart_of_link hstart (hostTimedOut_link f s))]

/-- Settles O21. -/
theorem timeoutEndsHostRequest : Obligations.TimeoutEndsHostRequest := by
  intro s f hpath howner hstart
  refine ⟨_, exec_timeout_of_host hpath howner hstart, ?_⟩
  obtain ⟨r, p, decided⟩ := f
  cases decided with
  | none =>
    show respondedOrHeld r .error (giveResponse r .error (freePort true (raise .downTimeout s))).forward ∧ _
    have hforward := giveResponse_freePort_forward (s := raise .downTimeout s) hpath r .error true
    refine ⟨?_, ?_, ?_, by simp [hostTimedOut], by simp, nofun, fun _ => ?_, fun h => ?_⟩
    · rw [hforward]
      exact .inl ⟨rfl, rfl⟩
    · refine causesGrow_giveResponse _ _ _ _ ?_
      rw [freePort_control]
      exact hasCause_raised _ s
    · exact (congrArg Port.aborted (giveResponse_port _ _ _)).trans (freePort_aborted _ _)
    · exact ⟨by simp [hostTimedOut], by simp [hostTimedOut], congrArg Forwarding.path hforward⟩
    · have ⟨hport, harbiter, _, _⟩ := giveResponse_freePort_free (s := raise .downTimeout s) h r .error true
      exact ⟨congrArg Port.outstanding hport, congrArg Arbiter.owner harbiter⟩
  | some d =>
    have hsettled := failure_settled r d (o := .timeout) .downTimeout true s
    have ⟨_, _, _, hstore, _, _, hresponded, _⟩ := hsettled
    refine ⟨hresponded, failure_raises r d .timeout .downTimeout true s, ?_, hstore, by simp, ?_, nofun, fun h => ?_⟩
    · exact (congrArg Port.aborted (settle_port ..)).trans (freePort_aborted _ _)
    · rintro _ ⟨⟩
      exact hsettled
    · have ⟨hport, howner⟩ := settle_freePort_free (s := raise .downTimeout s) h r d .timeout .error true
      exact ⟨congrArg Port.outstanding hport, howner⟩

/-! ## Acceptance -/

/-- The state that an acceptance leaves to be routed: no request waits at the upstream port, and no response is given yet
(R28). -/
def accepted (s : State) : State := s.withForward { s.forward with presented := none, given := none }

/-- Where the part may accept and nothing waits at the port, the row's own request is accepted (R28). -/
theorem exec_hostRequestAccept_of_free {s : State} {r : BusRequest} (hw : r.wellFormed = true) (hm : mayAccept s = true)
    (hp : s.forward.presented = none) :
    exec (.hostRequestAccept r) s = .next (routeRequest r (sampleFbyp (accepted s))) := by
  rw [exec_hostRequestAccept_wellFormed s hw, presentRequest, if_pos hm, hp]; rfl

/-- At an idle port the request is issued at once (R114). -/
theorem requestPort_of_idle {s : State} (h : portIdle s.arbiter = true) (f : Flight) :
    requestPort f s = issueReported (downstreamRequest f)
      ((s.withArbiter { s.arbiter with owner := some .forward }).withForward { s.forward with path := .outstanding f }) := by
  have hwait : s.arbiter.waitForward = false := by
    simp only [portIdle, Bool.and_eq_true, Bool.not_eq_true'] at h
    obtain ⟨⟨⟨_, hforward⟩, _⟩, _⟩ := h
    exact hforward
  have hgranted : grantedTo .forward s.arbiter = { s.arbiter with owner := some .forward } := by
    simp only [grantedTo, ← hwait]
  show (if portIdle s.arbiter then _ else _) = _
  rw [if_pos h, ← hgranted]
  rfl

/-- At a busy port the request waits for its grant (R114). -/
theorem requestPort_of_busy {s : State} (h : portIdle s.arbiter = false) (f : Flight) :
    requestPort f s =
      (s.withForward { s.forward with path := .waitGrant f }).withArbiter { s.arbiter with waitForward := true } := by
  show (if portIdle s.arbiter then _ else _) = _
  rw [if_neg (by simp [h])]
  rfl

theorem sampleFbyp_withForward (s : State) (f : Forwarding) :
    sampleFbyp (s.withForward f) = (sampleFbyp s).withForward f := by
  rw [sampleFbyp, sampleFbyp, apply_ite (State.withForward · f)]
  rfl

theorem reportWrite_sweep_congr (a : Nat) (ws : List WriteWord) {s t : State} (h : t.sweep = s.sweep) :
    (reportWrite a ws t).sweep = (reportWrite a ws s).sweep := by
  unfold reportWrite
  rw [h]
  split
  · split
    · rw [updateRecord_sweep, updateRecord_sweep, h]
    · exact h
  · exact h

/-- An issued WRITE is reported to the sweep engine, a READ is not (R119). -/
theorem issueReported_sweep_eq (r : BusRequest) {s t : State} (h : t.sweep = s.sweep) :
    (issueReported r t).sweep = match r with | .read _ _ => s.sweep | .write a ws => (reportWrite a ws s).sweep := by
  cases r with
  | read a n => simpa [issueReported] using h
  | write a ws => exact reportWrite_sweep_congr a ws (by simpa using h)

theorem routeRequest_of_not_active {s : State} (h : s.control.part ≠ .active) (r : BusRequest) :
    routeRequest r s = requestPort ⟨r, s.control.part, none⟩ s := by
  unfold routeRequest
  split
  · exact absurd ‹_› h
  · rfl

/-- Settles O14. -/
theorem requestForwardedOutsideActive : Obligations.RequestForwardedOutsideActive := by
  intro s r hw hm hp hpart
  have hexec := exec_hostRequestAccept_of_free hw hm hp
  rw [accepted, sampleFbyp_withForward, routeRequest_of_not_active (by exact hpart)] at hexec
  refine ⟨_, hexec, by simp, by simp, by simp, by simp, ?_, by simp, by simp, ?_⟩
  · cases hidle : portIdle s.arbiter with
    | true => rw [requestPort_of_idle (by simpa using hidle)]; simp
    | false => rw [requestPort_of_busy (by simpa using hidle)]; simp
  · cases hidle : portIdle s.arbiter with
    | true =>
      rw [if_pos rfl, requestPort_of_idle (by simpa using hidle), downstreamRequest_forwarded]
      refine ⟨by simp, by simp, ?_, issueReported_sweep_eq r (by simp)⟩
      simp [issued, sampleFbyp_config]
    | false =>
      rw [if_neg nofun, requestPort_of_busy (by simpa using hidle)]
      simp

/-! ## The course of a request in ACTIVE -/

/-- A request accepted in ACTIVE with FBYP inactive is governed by ACTIVE, and decided against the table as it stands
(R28). -/
theorem exec_hostRequestAccept_active {s : State} {r : BusRequest} (hw : r.wellFormed = true) (hm : mayAccept s = true)
    (hp : s.forward.presented = none) (ha : s.control.part = .active) (hf : s.pins.fbyp = false) :
    exec (.hostRequestAccept r) s = .next (governActive r (accepted s)) := by
  have hpart : (accepted s).control.part = .active := ha
  rw [exec_hostRequestAccept_of_free hw hm hp, sampleFbyp_of_released (by exact hf), routeRequest, hpart]

theorem settlesAlike_accepted (s : State) : SettlesAlike s (accepted s) := (SettlesAlike.refl s).withForward _

theorem governActive_malformed {s : State} {r : BusRequest} (h : malformed r = true) :
    governActive r s = giveResponse r .error (raise .malformed s) := if_pos h

/-- A request with a word decided by GUARD is refused whole, of either kind (R55, R62). -/
theorem governActive_guarded {s : State} {r : BusRequest} (h : malformed r = false)
    (hg : (decideRequest r s).words.any (decidedBy (takeSnapshot s.table) .guard) = true) :
    governActive r s = settle r (decideRequest r s) .refused .error s := by
  rw [governActive, if_neg (by simp [h])]
  cases r with
  | read a n => exact if_pos hg
  | write a ws => exact if_pos hg

/-- A READ that no GUARD slot refuses goes on from its store fetch (R33). -/
theorem governActive_read {s : State} {a n : Nat} (h : malformed (.read a n) = false)
    (hg : (decideRequest (.read a n) s).words.any (decidedBy (takeSnapshot s.table) .guard) = false) :
    governActive (.read a n) s = courseFetched (.read a n) (fetchWords s.store (decideRequest (.read a n) s)) s := by
  rw [governActive, if_neg (by simp [h])]
  exact if_neg (ne_true_of_eq_false hg)

/-- A WRITE that no GUARD slot refuses goes downstream with an enabled passed lane, and otherwise settles at once
(R34, R65). -/
theorem governActive_write {s : State} {a : Nat} {ws : List WriteWord} (h : malformed (.write a ws) = false)
    (hg : (decideRequest (.write a ws) s).words.any (decidedBy (takeSnapshot s.table) .guard) = false) :
    governActive (.write a ws) s =
      if anyLane (passedWords (decideRequest (.write a ws) s) ws) then
        requestPort ⟨.write a ws, .active, some (decideRequest (.write a ws) s)⟩ s
      else settle (.write a ws) (decideRequest (.write a ws) s) .okay (.okay []) s := by
  rw [governActive, if_neg (by simp [h])]
  exact if_neg (ne_true_of_eq_false hg)

/-- Settles O15. -/
theorem requestAnsweredErrorAtOnce : Obligations.RequestAnsweredErrorAtOnce := by
  intro s r hw hm hp ha hf
  have hexec := exec_hostRequestAccept_active hw hm hp ha hf
  refine ⟨fun hmal => ?_, fun hmal hg => ?_⟩
  · rw [hexec, governActive_malformed hmal, giveResponse, sampleFbyp_of_released (by exact hf)]
    rfl
  · rw [governActive_guarded (s := accepted s) hmal hg] at hexec
    have hsettled := settle_settled (settlesAlike_accepted s) r (decideRequest r s) .refused .error
    have ⟨_, _, _, hstore, _, _, hresponded, _⟩ := hsettled
    exact ⟨_, hexec, hresponded, hsettled, settle_port .., settle_arbiter .., hstore, settle_access .., settle_link ..⟩

/-- A decided request that goes downstream: its table, store and capture unit stay until it settles, and the port takes it
as it takes any request (R33, R34, R114). -/
theorem requestPort_accepted (f : Flight) (s : State) :
    (requestPort f (accepted s)).access = s.access ∧
    (portIdle s.arbiter = true →
      (requestPort f (accepted s)).forward.path = .outstanding f ∧
        (requestPort f (accepted s)).port.outstanding = issued (downstreamRequest f) s ∧
        (requestPort f (accepted s)).arbiter.owner = some .forward) ∧
    (portIdle s.arbiter = false →
      (requestPort f (accepted s)).forward.path = .waitGrant f ∧ (requestPort f (accepted s)).port = s.port ∧
        (requestPort f (accepted s)).arbiter = { s.arbiter with waitForward := true }) := by
  cases hidle : portIdle s.arbiter with
  | true =>
    rw [requestPort_of_idle (s := accepted s) hidle]
    exact ⟨by simp [accepted], fun _ => ⟨by simp, by simp [accepted, issued], by simp⟩, nofun⟩
  | false =>
    rw [requestPort_of_busy (s := accepted s) hidle]
    exact ⟨rfl, nofun, fun _ => ⟨rfl, rfl, rfl⟩⟩

/-- Settles O17. -/
theorem writeTakesItsCourse : Obligations.WriteTakesItsCourse := by
  intro s a ws hw hm hp ha hf hmal hg
  have hexec := exec_hostRequestAccept_active hw hm hp ha hf
  rw [governActive_write (s := accepted s) hmal hg] at hexec
  cases hlane : anyLane (passedWords (decideRequest (.write a ws) s) ws) with
  | true =>
    rw [if_pos (by exact hlane)] at hexec
    have ⟨haccess, hidle, hbusy⟩ := requestPort_accepted ⟨.write a ws, .active, some (decideRequest (.write a ws) s)⟩ s
    exact ⟨_, hexec, haccess, requestPort_link .., fun _ => ⟨requestPort_table .., requestPort_store ..,
      requestPort_capture .., hidle, hbusy⟩, nofun⟩
  | false =>
    rw [if_neg (by exact ne_true_of_eq_false hlane)] at hexec
    have hsettled :=
      settle_settled (settlesAlike_accepted s) (.write a ws) (decideRequest (.write a ws) s) .okay (.okay [])
    have ⟨_, _, _, hstore, _, _, hresponded, _⟩ := hsettled
    exact ⟨_, hexec, settle_access .., settle_link .., nofun, fun _ => ⟨hresponded, hsettled, settle_port ..,
      settle_arbiter .., hstore⟩⟩

/-! ### A bad SHADOW word -/

/-- A deciding slot is one of the table's 24 (R32). -/
theorem decider_lt {snap : List SnapSlot} {k : Kind} {a i : Nat} (h : decidingSlot snap k a = some i) : i < 24 :=
  List.mem_range.mp (List.mem_of_find?_eq_some h)

/-- Every slot of the table that took part in some word is in the hit set (R32). -/
theorem mem_hitSet_of_takesPart {ds : List WordDecision} {i : Nat} {d : WordDecision} (hi : i < 24) (hd : d ∈ ds)
    (h : takesPart i d = true) : ∃ a, (i, a) ∈ hitSet ds := by
  obtain ⟨e, he⟩ := Option.isSome_iff_exists.mp (List.find?_isSome.mpr ⟨d, hd, h⟩)
  exact ⟨e.addr, List.mem_filterMap.mpr ⟨i, List.mem_range.mpr hi, by rw [he]; rfl⟩⟩

/-- The fetch leaves the decision of a word (R33). -/
theorem fetchWord_decider (m : Store) (snap : List SnapSlot) (d : WordDecision) :
    (fetchWord m snap d).decider = d.decider := by
  unfold fetchWord
  split
  · split <;> rfl
  · rfl

/-- A counting slot that decided a bad word raises STORE_PARITY (R57, R58). -/
theorem accountSlots_raises_storeParity (k : Kind) (ts : Word) {d : Decided} {hits : List (Nat × Nat)} {p : Nat × Nat}
    (hp : p ∈ hits) (hf : slotFaulted d p.1 = true) (s : State) :
    hasCause (accountSlots k ts d hits s).control.causes .storeParity = true := by
  induction hits generalizing s with
  | nil => cases hp
  | cons q rest ih =>
    rcases List.mem_cons.mp hp with rfl | hmem
    · refine causesGrow_accountSlots k ts d rest _ _ ?_
      rw [accountFault, if_pos hf]
      split
      · rw [spend_control]; exact hasCause_raised _ _
      · exact hasCause_raised _ _
    · exact ih hmem _

/-- The words of a READ with a bad SHADOW word have a counting slot that decided it (R33, R58). -/
theorem exists_faulted_of_shadowFaulted {s : State} {a n : Nat}
    (h : shadowFaulted (fetchWords s.store (decideRequest (.read a n) s)) = true) :
    ∃ p ∈ hitSet (fetchWords s.store (decideRequest (.read a n) s)).words,
      slotFaulted (fetchWords s.store (decideRequest (.read a n) s)) p.1 = true := by
  obtain ⟨w, hw, hbad⟩ := List.any_eq_true.mp h
  obtain ⟨hshadow, hfault⟩ := Bool.and_eq_true_iff.mp hbad
  obtain ⟨i, hdec⟩ : ∃ i, w.decider = some i := by
    cases hd : w.decider with
    | none => simp [decidedBy, deciderConfig, hd] at hshadow
    | some i => exact ⟨i, rfl⟩
  have hlt : i < 24 := by
    obtain ⟨e, he, rfl⟩ := List.mem_map.mp hw
    obtain ⟨b, _, rfl⟩ := List.mem_map.mp he
    rw [fetchWord_decider] at hdec
    exact decider_lt hdec
  obtain ⟨b, hb⟩ := mem_hitSet_of_takesPart hlt hw (by simp [takesPart, hdec])
  exact ⟨(i, b), hb, List.any_eq_true.mpr ⟨w, hw, by simp [hdec, hfault]⟩⟩

/-- Settles O16. -/
theorem readTakesItsCourse : Obligations.ReadTakesItsCourse := by
  intro s a n hw hm hp ha hf hmal hg
  have hexec := exec_hostRequestAccept_active hw hm hp ha hf
  rw [governActive_read (s := accepted s) hmal hg, courseFetched] at hexec
  have settled := settle_settled (settlesAlike_accepted s) (.read a n) (fetchWords s.store (decideRequest (.read a n) s))
  cases hshadow : shadowFaulted (fetchWords s.store (decideRequest (.read a n) s)) with
  | true =>
    rw [if_pos (by exact hshadow)] at hexec
    have hsettled := settled .storeFault .error
    have ⟨_, _, hcauses, hstore, _, _, hresponded, _⟩ := hsettled
    obtain ⟨p, hmem, hfault⟩ := exists_faulted_of_shadowFaulted hshadow
    refine ⟨_, hexec, hstore, settle_access .., settle_link .., fun _ => ⟨hresponded, hsettled, settle_port ..,
      settle_arbiter .., hcauses _ ?_⟩, nofun, nofun⟩
    exact accountSlots_raises_storeParity _ _ hmem hfault s
  | false =>
    rw [if_neg (by exact ne_true_of_eq_false hshadow)] at hexec
    cases hneeds : (fetchWords s.store (decideRequest (.read a n) s)).words.any (needsMemory (takeSnapshot s.table)) with
    | true =>
      rw [if_pos (by exact hneeds)] at hexec
      have ⟨haccess, hidle, hbusy⟩ := requestPort_accepted
        ⟨.read a n, .active, some (fetchWords s.store (decideRequest (.read a n) s))⟩ s
      exact ⟨_, hexec, requestPort_store .., haccess, requestPort_link .., nofun, fun _ _ => ⟨requestPort_table ..,
        requestPort_capture .., hidle, hbusy⟩, nofun⟩
    | false =>
      rw [if_neg (by exact ne_true_of_eq_false hneeds)] at hexec
      have hsettled := settled .okay (.okay (composeRead (fetchWords s.store (decideRequest (.read a n) s)) []))
      have ⟨_, _, _, hstore, _, _, hresponded, _⟩ := hsettled
      refine ⟨_, hexec, hstore.trans ?_, settle_access .., settle_link .., nofun, nofun, fun _ _ => ⟨hresponded, hsettled,
        settle_port .., settle_arbiter ..⟩⟩
      rw [if_pos rfl, requestWords, List.zip_nil_right]
      rfl

/-! ## The request that waits at the port -/

theorem giveResponse_presented (r : BusRequest) (resp : BusResponse) (s : State) :
    (giveResponse r resp s).forward.presented = s.forward.presented := by rw [giveResponse_forward]

theorem takeOffer_presented (r : BusRequest) (resp : BusResponse) (o : CaptureOffer) (s : State) :
    (takeOffer r resp o s).forward.presented = s.forward.presented := by
  unfold takeOffer endHoldByDrop
  (repeat' split) <;> simp [giveResponse_presented, beginHold]

theorem settle_presented (r : BusRequest) (d : Decided) (o : RequestOutcome) (resp : BusResponse) (s : State) :
    (settle r d o resp s).forward.presented = s.forward.presented := by
  unfold settle
  split
  · rw [giveResponse_presented, settleUnits_forward]
  · rw [takeOffer_presented, settleUnits_forward]

theorem requestPort_presented (f : Flight) (s : State) :
    (requestPort f s).forward.presented = s.forward.presented := by
  cases h : portIdle s.arbiter with
  | true => rw [requestPort_of_idle h, issueReported_forward]; rfl
  | false => rw [requestPort_of_busy h]; rfl

theorem courseFetched_presented (r : BusRequest) (d : Decided) (s : State) :
    (courseFetched r d s).forward.presented = s.forward.presented := by
  unfold courseFetched
  split
  · exact settle_presented ..
  · split
    · exact requestPort_presented ..
    · exact settle_presented ..

theorem governActive_presented (r : BusRequest) (s : State) :
    (governActive r s).forward.presented = s.forward.presented := by
  unfold governActive courseRead courseWrite
  split
  · rw [giveResponse_presented, raise_forward]
  · split <;> split
    · exact settle_presented ..
    · exact courseFetched_presented ..
    · exact settle_presented ..
    · split
      · exact requestPort_presented ..
      · exact settle_presented ..

/-- The route of a request leaves the upstream port's own request to the acceptance (R28). -/
theorem routeRequest_presented (r : BusRequest) (s : State) :
    (routeRequest r s).forward.presented = s.forward.presented := by
  unfold routeRequest
  split
  · exact governActive_presented ..
  · exact requestPort_presented ..

theorem presentRequest_of_busy {s : State} (h : mayAccept s = false) (r : BusRequest) :
    presentRequest r s = s.withForward { s.forward with presented := some (s.forward.presented.getD r) } :=
  if_neg (by simp [h])

/-- Settles O18. -/
theorem requestWaitsAtTheBusyPort : Obligations.RequestWaitsAtTheBusyPort := by
  refine fun s r hw => ⟨fun hm hp => ?_, fun waiting hp hww => ⟨fun hm => ?_, fun hm => ?_⟩⟩
  · rw [exec_hostRequestAccept_wellFormed s hw, presentRequest_of_busy hm, hp]
    rfl
  · rw [exec_hostRequestAccept_wellFormed s hw, presentRequest_of_busy hm, hp, Option.getD_some, ← hp]
    rfl
  · refine ⟨acceptRequest waiting s, ?_, ?_, ?_⟩
    · rw [exec_hostRequestAccept_wellFormed s hw, presentRequest, if_pos hm, hp]; rfl
    · rw [acceptRequest, routeRequest_presented, sampleFbyp_forward]; rfl
    · exact exec_hostRequestAccept_of_free (s := s.withForward { s.forward with presented := none }) hww hm rfl

end Sys2Proof.Proofs

namespace Sys2Proof.Proofs

open Sys2Proof.Machine

set_option Elab.async false

/-! ## The word decision and the hit set -/

/-- The kinds field of a WATCH or GUARD slot admits the kind of request (R3, R31). -/
theorem appliesTo_iff (c : SlotConfig) (k : Kind) : appliesTo c k = true ↔
    (c.mode = .patch → k = .read) ∧
      (c.mode = .watch ∨ c.mode = .guard → c.kinds = 2 ∨ (c.kinds = 0 ∧ k = .read) ∨ (c.kinds = 1 ∧ k = .write)) := by
  unfold appliesTo
  cases c.mode with
  | watch | guard => cases k <;> simp <;> omega
  | patch => simp
  | shadow => simp

theorem matchesWord_iff (v : SnapSlot) (k : Kind) (a : Nat) : matchesWord v k a = true ↔
    v.state = .live ∧ v.config.base ≤ a ∧ a < v.config.base + 2 ^ v.config.k ∧ appliesTo v.config k = true := by
  simp only [matchesWord, inWindow, Bool.and_eq_true, beq_iff_eq, decide_eq_true_eq, and_assoc]
  rfl

theorem isAction_eq_true {m : Mode} : isAction m = true ↔ m ≠ .watch := by cases m <;> decide

theorem isAction_eq_false {m : Mode} : isAction m = false ↔ m = .watch := by cases m <;> decide

/-- In an ascending list the first member that passes a test is the least that does. -/
theorem find?_eq_some_iff_least {l : List Nat} (hl : l.Pairwise (· < ·)) (p : Nat → Bool) (a : Nat) :
    l.find? p = some a ↔ a ∈ l ∧ p a = true ∧ ∀ b ∈ l, p b = true → a ≤ b := by
  induction l with
  | nil => simp
  | cons x rest ih =>
    obtain ⟨hx, hrest⟩ := List.pairwise_cons.mp hl
    cases hp : p x with
    | true =>
      rw [List.find?_cons_of_pos hp]
      constructor
      · rintro ⟨⟩
        refine ⟨List.mem_cons_self, hp, fun b hb _ => ?_⟩
        rcases List.mem_cons.mp hb with rfl | h
        · exact le_refl _
        · exact (hx b h).le
      · rintro ⟨hmem, _, hleast⟩
        rcases List.mem_cons.mp hmem with rfl | h
        · rfl
        · exact absurd (hx a h) (Nat.not_lt.mpr (hleast x List.mem_cons_self hp))
    | false =>
      have hne : ∀ {b}, p b = true → b ≠ x := fun hb e => by simp [e, hp] at hb
      rw [List.find?_cons_of_neg (by simp [hp]), ih hrest]
      constructor
      · rintro ⟨hmem, hpa, hleast⟩
        exact ⟨List.mem_cons_of_mem x hmem, hpa, fun b hb hpb => hleast b (List.mem_of_ne_of_mem (hne hpb) hb) hpb⟩
      · rintro ⟨hmem, hpa, hleast⟩
        exact ⟨List.mem_of_ne_of_mem (hne hpa) hmem, hpa, fun b hb => hleast b (List.mem_cons_of_mem x hb)⟩

/-- The addresses of a request ascend (R23). -/
theorem requestAddrs_ascending (r : BusRequest) : (requestAddrs r).Pairwise (· < ·) :=
  List.pairwise_map.mpr (List.pairwise_lt_range.imp fun h => Nat.add_lt_add_left h _)

theorem decidingSlot_iff (snap : List SnapSlot) (k : Kind) (a i : Nat) : decidingSlot snap k a = some i ↔
    (i < 24 ∧ (snapAt snap i).config.mode ≠ .watch ∧ matchesWord (snapAt snap i) k a = true) ∧
      ∀ j < i, (snapAt snap j).config.mode = .watch ∨ matchesWord (snapAt snap j) k a = false := by
  simp only [decidingSlot, List.find?_range_eq_some, List.mem_range, Bool.not_eq_true', Bool.and_eq_false_iff,
    isAction_eq_false, Bool.and_eq_true, isAction_eq_true]
  exact and_left_comm.trans and_assoc.symm

theorem mem_observingSlots (snap : List SnapSlot) (k : Kind) (a i : Nat) : i ∈ observingSlots snap k a ↔
    i < 24 ∧ (snapAt snap i).config.mode = .watch ∧ matchesWord (snapAt snap i) k a = true := by
  simp [observingSlots, isAction_eq_false]

theorem mem_hitSet (ds : List WordDecision) (i a : Nat) :
    (i, a) ∈ hitSet ds ↔ i < 24 ∧ ∃ d, ds.find? (takesPart i) = some d ∧ d.addr = a := by
  simp [hitSet, List.mem_filterMap]

/-- The first address of a slot's words is the lowest that it decided or observed (R32, R77). -/
theorem mem_hitSet_decideWords (snap : List SnapSlot) (k : Kind) {addrs : List Nat} (h : addrs.Pairwise (· < ·))
    (i a : Nat) :
    (i, a) ∈ hitSet (decideWords snap k addrs) ↔
      i < 24 ∧ a ∈ addrs ∧ takesPart i (decideWord snap k a) = true ∧
        ∀ b ∈ addrs, takesPart i (decideWord snap k b) = true → a ≤ b := by
  have hfind : (∃ d, (decideWords snap k addrs).find? (takesPart i) = some d ∧ d.addr = a) ↔
      addrs.find? (fun b => takesPart i (decideWord snap k b)) = some a := by
    rw [decideWords, List.find?_map]
    show _ ↔ addrs.find? (takesPart i ∘ decideWord snap k) = some a
    cases addrs.find? (takesPart i ∘ decideWord snap k) <;> simp [decideWord]
  rw [mem_hitSet, hfind, find?_eq_some_iff_least h]

/-- The hit set is ascending by slot, so that it holds each slot once (R77). -/
theorem hitSet_ascending (ds : List WordDecision) : ((hitSet ds).map (·.1)).Pairwise (· < ·) := by
  refine List.pairwise_map.mpr (List.pairwise_filterMap.mpr (List.pairwise_lt_range.imp fun hij p hp q hq => ?_))
  obtain ⟨_, _, rfl⟩ := Option.map_eq_some_iff.mp hp
  obtain ⟨_, _, rfl⟩ := Option.map_eq_some_iff.mp hq
  exact hij

/-- Settles O22. -/
theorem wordDecisionAndHitSet : Obligations.WordDecisionAndHitSet :=
  ⟨fun v k a => by rw [matchesWord_iff, appliesTo_iff], decidingSlot_iff, mem_observingSlots,
    fun snap r => mem_hitSet_decideWords snap (requestKind r) (requestAddrs_ascending r), hitSet_ascending⟩

end Sys2Proof.Proofs

namespace Sys2Proof.Proofs

open Sys2Proof.Machine

set_option Elab.async false

/-! ## One counting slot

What the hit of one slot and its bad words leave of each slot, of the causes, of MARK and of the sweep engine (R78 to R89,
R57, R58). -/

theorem slot_of_table {s t : State} (h : t.table = s.table) (j : Nat) : t.slot j = s.slot j := congrArg (slotAt · j) h

@[simp] theorem raise_slot (c : Cause) (s : State) (j : Nat) : (raise c s).slot j = s.slot j := rfl

@[simp] theorem pulseMark_slot (s : State) (j : Nat) : (pulseMark s).slot j = s.slot j := rfl

@[simp] theorem noteLost_slot (x : SlotStatus) (s : State) (j : Nat) : (noteLost x s).slot j = s.slot j :=
  slot_of_table (noteLost_table x s) j

@[simp] theorem noteAlert_slot (c : SlotConfig) (s : State) (j : Nat) : (noteAlert c s).slot j = s.slot j :=
  slot_of_table (noteAlert_table c s) j

@[simp] theorem noteMark_slot (c : SlotConfig) (s : State) (j : Nat) : (noteMark c s).slot j = s.slot j :=
  slot_of_table (noteMark_table c s) j

@[simp] theorem reportHandoff_slot (c : SlotConfig) (s : State) (j : Nat) : (reportHandoff c s).slot j = s.slot j :=
  slot_of_table (reportHandoff_table c s) j

/-- A status replaced in a table of 24 slots is that slot's, and no other slot changes. -/
theorem slot_setStatus {s : State} (h : TableSound s) {i : Nat} (hi : i < 24) (x : SlotStatus) (j : Nat) :
    (s.setStatus i x).slot j = if j = i then { s.slot i with status := x } else s.slot j := by
  split
  next e => subst e; exact State.slot_setSlot_self s j _ (h ▸ hi)
  next e => exact State.slot_setSlot_other s i j _ e

theorem setStatus_tableSound {s : State} (h : TableSound s) (i : Nat) (x : SlotStatus) : TableSound (s.setStatus i x) := by
  rw [TableSound, State.setStatus_table, List.length_set, h]

/-- A slot number past the table reads as an IDLE slot, so that an ARMED slot is one of the table. -/
theorem lt_of_armed {s : State} (h : TableSound s) {j : Nat} (ha : (s.slot j).status.state = .armed) : j < 24 := by
  by_contra hj
  rw [State.slot, slotAt, List.getD_eq_default _ _ (h ▸ Nat.not_lt.mp hj)] at ha
  cases ha

/-- The slot hands off at its next hit, and its target is ARMED (R86, R87). -/
def passesOn (s : State) (i : Nat) : Bool :=
  handsOff s i && (s.slot (s.slot i).active.link).status.state == .armed

theorem passesOn_iff {s : State} {i : Nat} : passesOn s i = true ↔
    handsOff s i = true ∧ (s.slot (s.slot i).active.link).status.state = .armed := by
  simp [passesOn]

theorem handsOff_iff {s : State} {i : Nat} :
    handsOff s i = true ↔ reachesLimit (s.slot i) = true ∧ (s.slot i).active.action = .handoff := by
  simp [handsOff]

/-- The status that one hit leaves of the slot it counts for (R78 to R80, R83 to R87). -/
def hitStatus (k : Kind) (ts : Word) (a : Nat) (missed : Bool) (x : Slot) : SlotStatus :=
  { countHit k ts a x.status with
    state := if reachesLimit x = true ∧ x.active.action ≠ .notify then .spent else x.status.state
    handoffMissed := x.status.handoffMissed || missed }

/-- A target that a hand-off has reached (R86). -/
def armedTaken (x : Slot) : Slot := { x with status := { x.status with state := .live, count := 0 } }

/-- The state that a hit leaves before its limit is looked at (R78 to R82). -/
def hitTraced (k : Kind) (ts : Word) (i a : Nat) (s : State) : State :=
  noteMark (s.slot i).active (noteAlert (s.slot i).active
    ((noteLost (s.slot i).status s).setStatus i (countHit k ts a (s.slot i).status)))

theorem accountHit_eq (k : Kind) (ts : Word) (i a : Nat) (s : State) :
    accountHit k ts i a s = noteLimit i (s.slot i) (hitTraced k ts i a s) := rfl

section
variable {s : State} (htable : TableSound s) {i : Nat} (hi : i < 24) (k : Kind) (ts : Word) (a : Nat)
include htable hi

theorem hitTraced_slot (j : Nat) : (hitTraced k ts i a s).slot j =
    if j = i then { s.slot i with status := countHit k ts a (s.slot i).status } else s.slot j := by
  have hlost : TableSound (noteLost (s.slot i).status s) := by rw [TableSound, noteLost_table, htable]
  simp only [hitTraced, noteMark_slot, noteAlert_slot, slot_setStatus hlost hi, noteLost_slot]

omit hi in
theorem hitTraced_tableSound : TableSound (hitTraced k ts i a s) := by
  have hlost : TableSound (noteLost (s.slot i).status s) := by rw [TableSound, noteLost_table, htable]
  rw [TableSound, hitTraced, noteMark_table, noteAlert_table]
  exact setStatus_tableSound hlost _ _

end

theorem accountHit_of_below {s : State} {i : Nat} (h : reachesLimit (s.slot i) = false) (k : Kind) (ts : Word) (a : Nat) :
    accountHit k ts i a s = hitTraced k ts i a s := if_neg (by simp [h])

/-- The state in which a slot that reaches its limit takes its limit action. -/
def limitReached (k : Kind) (ts : Word) (i a : Nat) (s : State) : State := raise .slotLimit (hitTraced k ts i a s)

theorem accountHit_of_limit {s : State} {i : Nat} (h : reachesLimit (s.slot i) = true) (k : Kind) (ts : Word) (a : Nat) :
    accountHit k ts i a s = limitAction i (limitReached k ts i a s) := if_pos h

/-- The state in which a slot whose limit takes it out of LIVE is SPENT (R85, R86). -/
def limitSpent (k : Kind) (ts : Word) (i a : Nat) (s : State) : State := spend i (limitReached k ts i a s)

/-- A slot does not hand off to itself while it is ARMED: it would have to be LIVE to be hit (R31, R86). -/
abbrev NotOwnTarget (s : State) (i : Nat) : Prop :=
  (s.slot i).active.action = .handoff → (s.slot i).active.link = i → (s.slot i).status.state ≠ .armed

theorem hasCause_raise_beq (c d : Cause) (s : State) :
    hasCause (raise c s).control.causes d = (hasCause s.control.causes d || d == c) := by
  rw [hasCause_raise, beq_eq_decide, decide_eq_decide.mpr eq_comm]

theorem noteLost_causes (x : SlotStatus) (s : State) (c : Cause) : hasCause (noteLost x s).control.causes c =
    (hasCause s.control.causes c || (c == .slotLost && x.hit)) := by
  unfold noteLost
  cases x.hit with
  | true => rw [if_pos rfl, hasCause_raise_beq, Bool.and_true]
  | false => rw [if_neg nofun, Bool.and_false, Bool.or_false]

theorem noteAlert_causes (x : SlotConfig) (s : State) (c : Cause) : hasCause (noteAlert x s).control.causes c =
    (hasCause s.control.causes c || (c == .slotHit && x.alert)) := by
  unfold noteAlert
  cases x.alert with
  | true => rw [if_pos rfl, hasCause_raise_beq, Bool.and_true]
  | false => rw [if_neg nofun, Bool.and_false, Bool.or_false]

theorem hitTraced_causes (k : Kind) (ts : Word) (i a : Nat) (s : State) (c : Cause) :
    hasCause (hitTraced k ts i a s).control.causes c = (hasCause s.control.causes c ||
      (c == .slotLost && (s.slot i).status.hit) || (c == .slotHit && (s.slot i).active.alert)) := by
  rw [hitTraced, noteMark_control, noteAlert_causes, State.setStatus_control, noteLost_causes]

/-- A report of a hand-off depends on the sweep engine alone (R146). -/
theorem reportHandoff_sweep_congr (c : SlotConfig) {s t : State} (h : t.sweep = s.sweep) :
    (reportHandoff c t).sweep = (reportHandoff c s).sweep := by
  unfold reportHandoff
  rw [h]
  split
  · split
    · rw [updateRecord_sweep, updateRecord_sweep, h]
    · exact h
  · exact h

/-- The five courses of a hit: below the limit, and at it NOTIFY, RETIRE, and a HANDOFF that finds its target ARMED or
misses it (R83 to R87). -/
inductive HitCourse (k : Kind) (ts : Word) (i a : Nat) (s t : State) : Prop where
  | below (hreach : reachesLimit (s.slot i) = false) (h : t = hitTraced k ts i a s)
  | notify (hreach : reachesLimit (s.slot i) = true) (hact : (s.slot i).active.action = .notify)
      (h : t = limitReached k ts i a s)
  | retire (hreach : reachesLimit (s.slot i) = true) (hact : (s.slot i).active.action = .retire)
      (h : t = limitSpent k ts i a s)
  | passes (hoff : handsOff s i = true) (hpass : passesOn s i = true)
      (h : t = reportHandoff ((limitSpent k ts i a s).slot (s.slot i).active.link).active
        ((limitSpent k ts i a s).setStatus (s.slot i).active.link
          (armedTaken ((limitSpent k ts i a s).slot (s.slot i).active.link)).status))
  | misses (hoff : handsOff s i = true) (hpass : passesOn s i = false)
      (h : t = raise .handoffMissed ((limitSpent k ts i a s).setStatus i
        { ((limitSpent k ts i a s).slot i).status with handoffMissed := true }))

section
variable {s : State} (htable : TableSound s) {i : Nat} (hi : i < 24) (k : Kind) (ts : Word) (a : Nat)
include htable hi

theorem limitReached_slot_self : (limitReached k ts i a s).slot i =
    { s.slot i with status := countHit k ts a (s.slot i).status } := by
  rw [limitReached, raise_slot, hitTraced_slot htable hi, if_pos rfl]

theorem limitSpent_slot (j : Nat) : (limitSpent k ts i a s).slot j =
    if j = i then { s.slot i with status := { countHit k ts a (s.slot i).status with state := .spent } }
    else s.slot j := by
  have hsound : TableSound (limitReached k ts i a s) := hitTraced_tableSound htable k ts a
  rw [limitSpent, spend, slot_setStatus hsound hi, limitReached_slot_self htable hi]
  split
  · rfl
  · rw [limitReached, raise_slot, hitTraced_slot htable hi, if_neg ‹_›]

omit hi in
theorem limitSpent_tableSound : TableSound (limitSpent k ts i a s) :=
  setStatus_tableSound (hitTraced_tableSound htable k ts a : TableSound (limitReached k ts i a s)) _ _

/-- A hand-off is decided on its target as the hit finds it (R86, R87). -/
theorem limitSpent_armed_iff (hself : NotOwnTarget s i) (hoff : (s.slot i).active.action = .handoff) :
    ((limitSpent k ts i a s).slot (s.slot i).active.link).status.state = .armed ↔
      (s.slot (s.slot i).active.link).status.state = .armed := by
  rw [limitSpent_slot htable hi]
  split
  next e => simpa [e] using hself hoff e
  next => rfl

/-- Every hit takes one of the five courses. -/
theorem accountHit_course (hself : NotOwnTarget s i) : HitCourse k ts i a s (accountHit k ts i a s) := by
  cases hreach : reachesLimit (s.slot i) with
  | false => exact .below hreach (accountHit_of_below hreach k ts a)
  | true =>
    have hactive : ((limitReached k ts i a s).slot i).active = (s.slot i).active := by
      rw [limitReached_slot_self htable hi]
    have hlimit := accountHit_of_limit hreach k ts a
    rw [limitAction, hactive] at hlimit
    cases haction : (s.slot i).active.action with
    | notify => exact .notify hreach haction (by rw [hlimit, haction])
    | retire => exact .retire hreach haction (by rw [hlimit, haction]; rfl)
    | handoff =>
      have hoff : handsOff s i = true := handsOff_iff.mpr ⟨hreach, haction⟩
      have harmed := limitSpent_armed_iff htable hi k ts a hself haction
      rw [haction] at hlimit
      cases hpass : passesOn s i with
      | true => exact .passes hoff hpass (hlimit.trans (if_pos (harmed.mpr (passesOn_iff.mp hpass).2)))
      | false =>
        refine .misses hoff hpass (hlimit.trans (if_neg fun ha => ?_))
        simp [passesOn, hoff, harmed.mp ha] at hpass

/-- What a hit leaves of every slot (R78 to R80, R83 to R87). -/
theorem accountHit_slot (hself : NotOwnTarget s i) (j : Nat) : (accountHit k ts i a s).slot j =
    if j = i then { s.slot i with status := hitStatus k ts a (handsOff s i && !passesOn s i) (s.slot i) }
    else if passesOn s i = true ∧ j = (s.slot i).active.link then armedTaken (s.slot j)
    else s.slot j := by
  have hspent := limitSpent_slot htable hi k ts a
  have hsound := limitSpent_tableSound htable (i := i) k ts a
  cases accountHit_course htable hi k ts a hself with
  | below hreach h =>
    have hoff : handsOff s i = false := by simp [handsOff, hreach]
    rw [h, hitTraced_slot htable hi]
    simp [hitStatus, countHit, hreach, passesOn, hoff]
  | notify hreach hact h =>
    have hoff : handsOff s i = false := by simp [handsOff, hact]
    rw [h, limitReached, raise_slot, hitTraced_slot htable hi]
    simp [hitStatus, countHit, hact, passesOn, hoff]
  | retire hreach hact h =>
    have hoff : handsOff s i = false := by simp [handsOff, hact]
    rw [h, hspent]
    simp [hitStatus, countHit, hreach, hact, passesOn, hoff]
  | passes hoff hpass h =>
    obtain ⟨hreach, hact⟩ := handsOff_iff.mp hoff
    have harmed := (passesOn_iff.mp hpass).2
    have hne : (s.slot i).active.link ≠ i := fun e => hself hact e (e ▸ harmed)
    rw [h, reportHandoff_slot, slot_setStatus hsound (lt_of_armed htable harmed), hspent, if_neg hne, hspent]
    by_cases hj : j = (s.slot i).active.link
    · simp [hj, hne, hpass, armedTaken]
    · simp [hj, hitStatus, countHit, hreach, hact, hpass]
  | misses hoff hpass h =>
    obtain ⟨hreach, hact⟩ := handsOff_iff.mp hoff
    rw [h, raise_slot, slot_setStatus hsound hi, hspent, hspent, if_pos rfl]
    by_cases hj : j = i
    · simp [hj, hitStatus, countHit, hreach, hact, hoff, hpass]
    · simp [hj, hpass]

/-- The causes that a hit raises (R80, R81, R83, R87). -/
theorem accountHit_causes (hself : NotOwnTarget s i) (c : Cause) :
    hasCause (accountHit k ts i a s).control.causes c = (hasCause s.control.causes c ||
      ((c == .slotLost && (s.slot i).status.hit) || (c == .slotHit && (s.slot i).active.alert) ||
        (c == .slotLimit && reachesLimit (s.slot i)) || (c == .handoffMissed && handsOff s i && !passesOn s i))) := by
  have htraced := hitTraced_causes k ts i a s c
  have hlimit : hasCause (limitReached k ts i a s).control.causes c =
      (hasCause (hitTraced k ts i a s).control.causes c || c == .slotLimit) := hasCause_raise_beq ..
  cases accountHit_course htable hi k ts a hself with
  | below hreach h =>
    have hoff : handsOff s i = false := by simp [handsOff, hreach]
    rw [h, htraced]
    simp [hoff, hreach, Bool.or_assoc]
  | notify hreach hact h =>
    have hoff : handsOff s i = false := by simp [handsOff, hact]
    rw [h, hlimit, htraced]
    simp [hoff, hreach, Bool.or_assoc]
  | retire hreach hact h =>
    have hoff : handsOff s i = false := by simp [handsOff, hact]
    rw [h, limitSpent, spend_control, hlimit, htraced]
    simp [hoff, hreach, Bool.or_assoc]
  | passes hoff hpass h =>
    rw [h, reportHandoff_control, State.setStatus_control, limitSpent, spend_control, hlimit, htraced]
    simp [hpass, (handsOff_iff.mp hoff).1, Bool.or_assoc]
  | misses hoff hpass h =>
    rw [h, hasCause_raise_beq, State.setStatus_control, limitSpent, spend_control, hlimit, htraced]
    simp [hoff, hpass, (handsOff_iff.mp hoff).1, Bool.or_assoc]

/-- A hit reports the hand-off that finds its target ARMED, and nothing else (R89). -/
theorem accountHit_sweep (hself : NotOwnTarget s i) : (accountHit k ts i a s).sweep =
    if passesOn s i = true then (reportHandoff (s.slot (s.slot i).active.link).active s).sweep else s.sweep := by
  have htraced : (hitTraced k ts i a s).sweep = s.sweep := by simp [hitTraced]
  have hspent : (limitSpent k ts i a s).sweep = s.sweep := by simp [limitSpent, limitReached, htraced]
  cases accountHit_course htable hi k ts a hself with
  | below hreach h =>
    rw [h, htraced, if_neg (by simp [passesOn, handsOff, hreach])]
  | notify hreach hact h =>
    rw [h, limitReached, raise_sweep, htraced, if_neg (by simp [passesOn, handsOff, hact])]
  | retire hreach hact h =>
    rw [h, hspent, if_neg (by simp [passesOn, handsOff, hact])]
  | passes hoff hpass h =>
    have hne : (s.slot i).active.link ≠ i := fun e =>
      hself (handsOff_iff.mp hoff).2 e (e ▸ (passesOn_iff.mp hpass).2)
    rw [h, if_pos hpass, limitSpent_slot htable hi, if_neg hne]
    exact reportHandoff_sweep_congr _ hspent
  | misses hoff hpass h =>
    rw [h, raise_sweep, State.setStatus_sweep, hspent, if_neg (by simp [hpass])]

end

/-- A hit of a slot with its mark flag on begins a pulse (R82). -/
theorem accountHit_pins (k : Kind) (ts : Word) (i a : Nat) (s : State) : (accountHit k ts i a s).pins =
    if (s.slot i).active.mark = true then { s.pins with markLeft := 4 } else s.pins := by
  rw [accountHit_eq, noteLimit_pins, hitTraced, noteMark]
  split <;> simp [pulseMark]

/-! ### Bad words -/

/-- The slot after the store-fault effects (R57, R58). -/
def faultedSlot (d : Decided) (i : Nat) (x : Slot) : Slot :=
  { x with status := { x.status with
    state := if decidedBad d i = true ∧ snapMode d i = .patch then .spent else x.status.state
    storeFault := x.status.storeFault || decidedBad d i } }

theorem accountFault_slot {s : State} (htable : TableSound s) {i : Nat} (hi : i < 24) (d : Decided) (j : Nat) :
    (accountFault d i s).slot j = if j = i then faultedSlot d i (s.slot i) else s.slot j := by
  have hflag (j : Nat) : (flagFault i s).slot j =
      if j = i then { s.slot i with status := { (s.slot i).status with storeFault := true } } else s.slot j := by
    rw [flagFault, raise_slot, slot_setStatus htable hi]
  have hsound : TableSound (flagFault i s) := setStatus_tableSound htable i _
  unfold accountFault
  by_cases hbad : slotFaulted d i = true
  · have hdecided : decidedBad d i = true := hbad
    rw [if_pos hbad]
    split
    next hpatch =>
      rw [spend, slot_setStatus hsound hi, hflag, hflag, if_pos rfl]
      by_cases hj : j = i <;> simp [hj, faultedSlot, hdecided, hpatch]
    next hpatch =>
      rw [hflag]
      by_cases hj : j = i <;> simp [hj, faultedSlot, hdecided, hpatch]
  · have hdecided : decidedBad d i = false := Bool.not_eq_true _ ▸ hbad
    rw [if_neg hbad]
    by_cases hj : j = i <;> simp [hj, faultedSlot, hdecided]

theorem accountFault_causes (d : Decided) (i : Nat) (s : State) (c : Cause) :
    hasCause (accountFault d i s).control.causes c =
      (hasCause s.control.causes c || (c == .storeParity && decidedBad d i)) := by
  have hflag : hasCause (flagFault i s).control.causes c = (hasCause s.control.causes c || c == .storeParity) :=
    hasCause_raise_beq ..
  unfold accountFault
  by_cases hbad : slotFaulted d i = true
  · have hdecided : decidedBad d i = true := hbad
    rw [if_pos hbad, hdecided, Bool.and_true]
    split
    · rw [spend_control, hflag]
    · exact hflag
  · have hdecided : decidedBad d i = false := Bool.not_eq_true _ ▸ hbad
    rw [if_neg hbad, hdecided, Bool.and_false, Bool.or_false]

end Sys2Proof.Proofs

namespace Sys2Proof.Proofs

open Sys2Proof.Machine

set_option Elab.async false

/-! ## The counting slots of a settle

The slots are counted one at a time (R77). The count of one leaves every slot behind it as it was, and takes its target from
those behind it that hand off to the same one (R88). -/

/-- One slot's part of a settle (R77, R59). -/
def countSlot (k : Kind) (ts : Word) (d : Decided) (p : Nat × Nat) (s : State) : State :=
  accountFault d p.1 (accountHit k ts p.1 p.2 s)

theorem accountSlots_cons (k : Kind) (ts : Word) (d : Decided) (p : Nat × Nat) (rest : List (Nat × Nat)) (s : State) :
    accountSlots k ts d (p :: rest) s = accountSlots k ts d rest (countSlot k ts d p s) := rfl

/-- A set that a settle may count: LIVE slots of the table, ascending and each once (R32, R76). -/
structure CountedSet (s : State) (hits : List (Nat × Nat)) : Prop where
  table : TableSound s
  ascending : (hits.map (·.1)).Pairwise (· < ·)
  live : ∀ p ∈ hits, p.1 < 24 ∧ (s.slot p.1).status.state = .live

/-- The slot after its own count (R78 to R80, R83 to R87, R57, R58). -/
def countedSlot (k : Kind) (ts : Word) (d : Decided) (missed : Bool) (p : Nat × Nat) (x : Slot) : Slot :=
  faultedSlot d p.1 { x with status := hitStatus k ts p.2 missed x }

/-- A LIVE slot is SPENT by its limit or by a bad word of its own, and otherwise stays LIVE (R85, R86, R57). -/
theorem countedSlot_eq {x : Slot} (hlive : x.status.state = .live) (k : Kind) (ts : Word) (d : Decided) (missed : Bool)
    (p : Nat × Nat) : countedSlot k ts d missed p x = { x with
      status := { x.status with
        state :=
          if (reachesLimit x = true ∧ x.active.action ≠ .notify) ∨ (decidedBad d p.1 = true ∧ snapMode d p.1 = .patch)
          then .spent else .live
        count := min (x.status.count + 1) 65535
        newest := some ⟨ts, p.2, k⟩
        prior := x.status.newest
        hit := true
        lost := x.status.lost || x.status.hit
        handoffMissed := x.status.handoffMissed || missed
        storeFault := x.status.storeFault || decidedBad d p.1 } } := by
  by_cases hbad : decidedBad d p.1 = true ∧ snapMode d p.1 = .patch
  · simp [countedSlot, faultedSlot, hitStatus, countHit, hbad]
  · simp [countedSlot, faultedSlot, hitStatus, countHit, hbad, hlive]

theorem countedSlot_not_armed {x : Slot} (hlive : x.status.state = .live) {k : Kind} {ts : Word} {d : Decided}
    {missed : Bool} {p : Nat × Nat} : (countedSlot k ts d missed p x).status.state ≠ .armed := by
  rw [countedSlot_eq hlive]
  show (if _ then SlotState.spent else .live) ≠ .armed
  split <;> nofun

/-- A slot hands over where it hands off to an ARMED target that no lower-numbered slot of the set hands off to
(R86 to R88). -/
theorem handsOver_iff {s : State} {hits : List (Nat × Nat)} {i : Nat} : handsOver s hits i = true ↔
    handsOff s i = true ∧ (s.slot (s.slot i).active.link).status.state = .armed ∧
      ∀ r ∈ hits, ¬ (r.1 < i ∧ handsOff s r.1 = true ∧ (s.slot r.1).active.link = (s.slot i).active.link) := by
  simp [handsOver, and_assoc]

namespace CountedSet

variable {s : State} {p : Nat × Nat} {rest : List (Nat × Nat)} (h : CountedSet s (p :: rest)) (k : Kind) (ts : Word)
  (d : Decided)
include h

theorem head_lt : p.1 < 24 := (h.live p List.mem_cons_self).1

theorem head_live : (s.slot p.1).status.state = .live := (h.live p List.mem_cons_self).2

theorem lt_of_mem {q : Nat × Nat} (hq : q ∈ rest) : p.1 < q.1 :=
  (List.pairwise_cons.mp h.ascending).1 q.1 (List.mem_map_of_mem hq)

theorem head_notOwnTarget : NotOwnTarget s p.1 := fun _ _ ha => nomatch h.head_live.symm.trans ha

theorem accountHit_tableSound : TableSound (accountHit k ts p.1 p.2 s) :=
  accountHit_keeps (P := TableSound) (fun _ _ hs => hs) (fun i x _ hs => setStatus_tableSound hs i x) (fun _ hs => hs)
    (fun c _ hs => by rw [TableSound, reportHandoff_table]; exact hs) k ts p.1 p.2 h.table

theorem countSlot_tableSound : TableSound (countSlot k ts d p s) :=
  accountFault_keeps (P := TableSound) (fun _ _ hs => hs) (fun i x _ hs => setStatus_tableSound hs i x) d p.1
    (h.accountHit_tableSound k ts)

/-- What the count of the first slot leaves of every slot. -/
theorem countSlot_slot (j : Nat) : (countSlot k ts d p s).slot j =
    if j = p.1 then countedSlot k ts d (handsOff s p.1 && !passesOn s p.1) p (s.slot p.1)
    else if passesOn s p.1 = true ∧ j = (s.slot p.1).active.link then armedTaken (s.slot j)
    else s.slot j := by
  have hhit := accountHit_slot h.table h.head_lt k ts p.2 h.head_notOwnTarget
  rw [countSlot, accountFault_slot (h.accountHit_tableSound k ts) h.head_lt]
  split
  next => rw [hhit, if_pos rfl, countedSlot]
  next hj => rw [hhit, if_neg hj]

theorem countSlot_causes (c : Cause) : hasCause (countSlot k ts d p s).control.causes c =
    (hasCause s.control.causes c ||
      ((c == .slotLost && (s.slot p.1).status.hit) || (c == .slotHit && (s.slot p.1).active.alert) ||
        (c == .slotLimit && reachesLimit (s.slot p.1)) || (c == .handoffMissed && handsOff s p.1 && !passesOn s p.1) ||
        (c == .storeParity && decidedBad d p.1))) := by
  rw [countSlot, accountFault_causes, accountHit_causes h.table h.head_lt k ts p.2 h.head_notOwnTarget, Bool.or_assoc]

theorem countSlot_sweep : (countSlot k ts d p s).sweep =
    if passesOn s p.1 = true then (reportHandoff (s.slot (s.slot p.1).active.link).active s).sweep else s.sweep := by
  rw [countSlot, accountFault_sweep, accountHit_sweep h.table h.head_lt k ts p.2 h.head_notOwnTarget]

/-- The slots behind the first are no targets of its hand-off, and stay (R86). -/
theorem countSlot_slot_of_mem {q : Nat × Nat} (hq : q ∈ rest) : (countSlot k ts d p s).slot q.1 = s.slot q.1 := by
  rw [h.countSlot_slot, if_neg (h.lt_of_mem hq).ne', if_neg]
  rintro ⟨hpass, hlink⟩
  have harmed := (passesOn_iff.mp hpass).2
  rw [← hlink, (h.live q (List.mem_cons_of_mem p hq)).2] at harmed
  cases harmed

theorem tail : CountedSet (countSlot k ts d p s) rest where
  table := h.countSlot_tableSound k ts d
  ascending := (List.pairwise_cons.mp h.ascending).2
  live q hq := by
    rw [h.countSlot_slot_of_mem k ts d hq]
    exact h.live q (List.mem_cons_of_mem p hq)

/-- The configuration of every slot stays (R16). -/
theorem countSlot_active (j : Nat) : ((countSlot k ts d p s).slot j).active = (s.slot j).active := by
  rw [h.countSlot_slot]
  split
  next e => rw [e]; rfl
  next => split <;> rfl

/-- The lowest slot of a set hands over whenever its target is ARMED (R88). -/
theorem handsOver_head : handsOver s (p :: rest) p.1 = passesOn s p.1 := by
  have hnone : (p :: rest).any (fun q => decide (q.1 < p.1) && handsOff s q.1 &&
      (s.slot q.1).active.link == (s.slot p.1).active.link) = false := by
    refine List.any_eq_false.mpr fun q hq => ?_
    have hle : ¬ q.1 < p.1 := by
      rcases List.mem_cons.mp hq with rfl | hmem
      · exact lt_irrefl _
      · exact (h.lt_of_mem hmem).asymm
    simp [hle]
  rw [handsOver, hnone, Bool.not_false, Bool.and_true]
  rfl

/-- After the count of the first slot a slot is ARMED where it was and is no target of that slot's hand-off (R86, R88). -/
theorem armed_countSlot (j : Nat) : ((countSlot k ts d p s).slot j).status.state = .armed ↔
    (s.slot j).status.state = .armed ∧ ¬ (handsOff s p.1 = true ∧ (s.slot p.1).active.link = j) := by
  rw [h.countSlot_slot]
  split
  next e =>
    rw [e, h.head_live]
    exact iff_of_false (countedSlot_not_armed h.head_live) nofun
  next =>
    split
    next hpass =>
      exact iff_of_false nofun fun ⟨_, hnot⟩ => hnot ⟨(passesOn_iff.mp hpass.1).1, hpass.2.symm⟩
    next hpass =>
      refine ⟨fun ha => ⟨ha, fun ⟨hoff, hlink⟩ => hpass ⟨passesOn_iff.mpr ⟨hoff, hlink ▸ ha⟩, hlink.symm⟩⟩, And.left⟩

/-- After the count of the first slot the others hand over as they do in the whole set (R88). -/
theorem handsOver_tail {q : Nat × Nat} (hq : q ∈ rest) :
    handsOver (countSlot k ts d p s) rest q.1 = handsOver s (p :: rest) q.1 := by
  have hslot {r : Nat × Nat} (hr : r ∈ rest) := h.countSlot_slot_of_mem k ts d hr
  have hoff {r : Nat × Nat} (hr : r ∈ rest) : handsOff (countSlot k ts d p s) r.1 = handsOff s r.1 := by
    rw [handsOff, handsOff, hslot hr]
  rw [Bool.eq_iff_iff, handsOver_iff, handsOver_iff, hoff hq, hslot hq, h.armed_countSlot, List.forall_mem_cons, and_assoc]
  have hrest : (∀ r ∈ rest, ¬ (r.1 < q.1 ∧ handsOff (countSlot k ts d p s) r.1 = true ∧
        ((countSlot k ts d p s).slot r.1).active.link = (s.slot q.1).active.link)) ↔
      ∀ r ∈ rest, ¬ (r.1 < q.1 ∧ handsOff s r.1 = true ∧ (s.slot r.1).active.link = (s.slot q.1).active.link) :=
    forall₂_congr fun r hr => by rw [hoff hr, hslot hr]
  rw [hrest, and_iff_right (h.lt_of_mem hq)]

end CountedSet

/-! ### The whole set -/

/-- Two tests that agree on the members of a list hold of the same lists. -/
theorem any_congr_mem {α : Type} {l : List α} {f g : α → Bool} (h : ∀ x ∈ l, f x = g x) : l.any f = l.any g := by
  rw [Bool.eq_iff_iff, List.any_eq_true, List.any_eq_true]
  exact exists_congr fun x => and_congr_right fun hx => by rw [h x hx]

/-- Some slot of the set hands over to the slot (R86). -/
def reached (s : State) (hits : List (Nat × Nat)) (j : Nat) : Bool :=
  hits.any (fun p => handsOver s hits p.1 && (s.slot p.1).active.link == j)

theorem armed_of_reached {s : State} {hits : List (Nat × Nat)} {j : Nat} (h : reached s hits j = true) :
    (s.slot j).status.state = .armed := by
  obtain ⟨p, _, hp⟩ := List.any_eq_true.mp h
  obtain ⟨hover, hlink⟩ := Bool.and_eq_true_iff.mp hp
  exact beq_iff_eq.mp hlink ▸ (handsOver_iff.mp hover).2.1

section
variable (k : Kind) (ts : Word) (d : Decided)

theorem reached_cons {s : State} {p : Nat × Nat} {rest : List (Nat × Nat)} (h : CountedSet s (p :: rest)) (j : Nat) :
    reached s (p :: rest) j =
      ((passesOn s p.1 && (s.slot p.1).active.link == j) || reached (countSlot k ts d p s) rest j) := by
  have hrest : reached (countSlot k ts d p s) rest j =
      rest.any (fun q => handsOver s (p :: rest) q.1 && (s.slot q.1).active.link == j) :=
    any_congr_mem fun q hq => by rw [h.handsOver_tail k ts d hq, h.countSlot_active]
  rw [reached, List.any_cons, h.handsOver_head, hrest]

/-- A slot outside the set changes where a hand-off of the set reaches it, and only there (R86, R88). -/
theorem accountSlots_slot_of_not_mem {hits : List (Nat × Nat)} {s : State} (h : CountedSet s hits) {j : Nat}
    (hj : j ∉ hits.map (·.1)) : (accountSlots k ts d hits s).slot j =
      if reached s hits j = true then armedTaken (s.slot j) else s.slot j := by
  induction hits generalizing s with
  | nil => rfl
  | cons p rest ih =>
    obtain ⟨hne, hrest⟩ := not_or.mp (mt List.mem_cons.mpr hj)
    rw [accountSlots_cons, ih (h.tail k ts d) hrest, reached_cons k ts d h, h.countSlot_slot, if_neg hne]
    by_cases hpass : passesOn s p.1 = true ∧ j = (s.slot p.1).active.link
    · simp [hpass.1, ← hpass.2, armedTaken]
    · have hnot : (passesOn s p.1 && (s.slot p.1).active.link == j) = false := by
        rw [Bool.and_eq_false_iff, beq_eq_false_iff_ne]
        by_contra hc
        simp only [not_or, Bool.not_eq_false, not_not] at hc
        exact hpass ⟨hc.1, hc.2.symm⟩
      rw [if_neg hpass, hnot, Bool.false_or]

/-- Each slot of the set is counted once: what its own count leaves stands at the end (R77). -/
theorem accountSlots_slot_of_mem {hits : List (Nat × Nat)} {s : State} (h : CountedSet s hits) {q : Nat × Nat}
    (hq : q ∈ hits) : (accountSlots k ts d hits s).slot q.1 =
      countedSlot k ts d (handsOff s q.1 && !handsOver s hits q.1) q (s.slot q.1) := by
  induction hits generalizing s with
  | nil => cases hq
  | cons p rest ih =>
    rw [accountSlots_cons]
    rcases List.mem_cons.mp hq with rfl | hmem
    · have hself : (countSlot k ts d q s).slot q.1 = countedSlot k ts d (handsOff s q.1 && !passesOn s q.1) q (s.slot q.1) := by
        rw [h.countSlot_slot, if_pos rfl]
      have hout : q.1 ∉ rest.map (·.1) := fun hin =>
        lt_irrefl q.1 ((List.pairwise_cons.mp h.ascending).1 q.1 hin)
      have hnot : ¬ reached (countSlot k ts d q s) rest q.1 = true := fun hr =>
        countedSlot_not_armed h.head_live (hself ▸ armed_of_reached hr)
      rw [accountSlots_slot_of_not_mem k ts d (h.tail k ts d) hout, if_neg hnot, hself, h.handsOver_head]
    · rw [ih (h.tail k ts d) hmem, handsOff, h.countSlot_slot_of_mem k ts d hmem, h.handsOver_tail k ts d hmem]
      rfl

/-- The causes that a slot of the set raises at its count (R80, R81, R83, R87, R57). -/
def raisedBy (s : State) (hits : List (Nat × Nat)) (c : Cause) (p : Nat × Nat) : Bool :=
  (c == .slotLost && (s.slot p.1).status.hit) || (c == .slotHit && (s.slot p.1).active.alert) ||
    (c == .slotLimit && reachesLimit (s.slot p.1)) ||
    (c == .handoffMissed && handsOff s p.1 && !handsOver s hits p.1) || (c == .storeParity && decidedBad d p.1)

theorem accountSlots_causes {hits : List (Nat × Nat)} {s : State} (h : CountedSet s hits) (c : Cause) :
    hasCause (accountSlots k ts d hits s).control.causes c =
      (hasCause s.control.causes c || hits.any (raisedBy d s hits c)) := by
  induction hits generalizing s with
  | nil => exact (Bool.or_false _).symm
  | cons p rest ih =>
    have hhead : raisedBy d s (p :: rest) c p = ((c == .slotLost && (s.slot p.1).status.hit) ||
        (c == .slotHit && (s.slot p.1).active.alert) || (c == .slotLimit && reachesLimit (s.slot p.1)) ||
        (c == .handoffMissed && handsOff s p.1 && !passesOn s p.1) || (c == .storeParity && decidedBad d p.1)) := by
      rw [raisedBy, h.handsOver_head]
    have hrest : rest.any (raisedBy d (countSlot k ts d p s) rest c) = rest.any (raisedBy d s (p :: rest) c) :=
      any_congr_mem fun q hq => by
        rw [raisedBy, raisedBy, handsOff, handsOff, h.countSlot_slot_of_mem k ts d hq, h.handsOver_tail k ts d hq]
    rw [accountSlots_cons, ih (h.tail k ts d), h.countSlot_causes, List.any_cons, hrest, hhead, Bool.or_assoc]

theorem accountSlots_pins {hits : List (Nat × Nat)} {s : State} (h : CountedSet s hits) :
    (accountSlots k ts d hits s).pins =
      if hits.any (fun p => (s.slot p.1).active.mark) = true then { s.pins with markLeft := 4 } else s.pins := by
  induction hits generalizing s with
  | nil => rfl
  | cons p rest ih =>
    have hrest : rest.any (fun q => ((countSlot k ts d p s).slot q.1).active.mark) =
        rest.any (fun q => (s.slot q.1).active.mark) := any_congr_mem fun q _ => by rw [h.countSlot_active]
    rw [accountSlots_cons, ih (h.tail k ts d), hrest, List.any_cons, countSlot, accountFault_pins, accountHit_pins]
    cases (s.slot p.1).active.mark with
    | true => rw [Bool.true_or, if_pos rfl]; split <;> rfl
    | false => rw [Bool.false_or, if_neg Bool.false_ne_true]

/-- The report of one slot's hand-off, where it hands over (R89). -/
def reportOver (s : State) (hits : List (Nat × Nat)) (u : State) (p : Nat × Nat) : State :=
  if handsOver s hits p.1 = true then reportHandoff (s.slot (s.slot p.1).active.link).active u else u

theorem reportOver_sweep_congr (s : State) (hits : List (Nat × Nat)) (p : Nat × Nat) {u v : State}
    (h : u.sweep = v.sweep) : (reportOver s hits u p).sweep = (reportOver s hits v p).sweep := by
  unfold reportOver
  split
  · exact reportHandoff_sweep_congr _ h
  · exact h

/-- Reports one after another depend on the sweep engine alone. -/
theorem foldl_reportOver_sweep_congr (s : State) (hits l : List (Nat × Nat)) {u v : State} (h : u.sweep = v.sweep) :
    (l.foldl (reportOver s hits) u).sweep = (l.foldl (reportOver s hits) v).sweep := by
  induction l generalizing u v with
  | nil => exact h
  | cons p rest ih => exact ih (reportOver_sweep_congr s hits p h)

theorem accountSlots_sweep {hits : List (Nat × Nat)} {s : State} (h : CountedSet s hits) :
    (accountSlots k ts d hits s).sweep = (hits.foldl (reportOver s hits) s).sweep := by
  induction hits generalizing s with
  | nil => rfl
  | cons p rest ih =>
    have hrest (u : State) : rest.foldl (reportOver (countSlot k ts d p s) rest) u = rest.foldl (reportOver s (p :: rest)) u :=
      List.foldl_ext _ _ u fun v q hq => by
        rw [reportOver, reportOver, h.handsOver_tail k ts d hq, h.countSlot_active, h.countSlot_active]
    rw [accountSlots_cons, ih (h.tail k ts d), hrest, List.foldl_cons]
    refine foldl_reportOver_sweep_congr s (p :: rest) rest ?_
    rw [h.countSlot_sweep, reportOver, h.handsOver_head, apply_ite State.sweep]

/-- What the count of a set leaves of every unit but the table, and of the control unit but for the causes. -/
theorem accountSlots_frame {hits : List (Nat × Nat)} {s : State} (h : CountedSet s hits) :
    accountSlots k ts d hits s = { s with
      table := (accountSlots k ts d hits s).table
      pins := if hits.any (fun p => (s.slot p.1).active.mark) = true then { s.pins with markLeft := 4 } else s.pins
      control := { s.control with causes := (accountSlots k ts d hits s).control.causes }
      sweep := (hits.foldl (reportOver s hits) s).sweep } := by
  obtain ⟨causes, hcontrol⟩ := sameSettings_accountSlots k ts d hits s
  exact State.eq_of_units (by simp) (accountSlots_pins k ts d h) (by rw [hcontrol]) rfl (by simp) (by simp) (by simp)
    (by simp) (by simp) (by simp) (accountSlots_sweep k ts d h) (by simp)

end

/-! ### The counting set -/

theorem countingSet_ascending (k : Kind) (o : RequestOutcome) (d : Decided) :
    ((countingSet k o d).map (·.1)).Pairwise (· < ·) := by
  unfold countingSet
  split
  · exact (hitSet_ascending d.words).sublist (List.filter_sublist.map _)
  · exact hitSet_ascending d.words

theorem mem_countingSet (k : Kind) (o : RequestOutcome) (d : Decided) (p : Nat × Nat) : p ∈ countingSet k o d ↔
    p ∈ hitSet d.words ∧ ¬ (k = .write ∧ o = .refused ∧ (snapAt d.snapshot p.1).config.mode = .shadow) := by
  unfold countingSet
  split
  next h => simp [List.mem_filter, snapMode, h]
  next h => exact (and_iff_left fun hc => h ⟨hc.1, hc.2.1⟩).symm

/-- Settles O26. -/
theorem settleCountsEverySlotOnce : Obligations.SettleCountsEverySlotOnce := by
  refine ⟨fun k o d => ⟨countingSet_ascending k o d, mem_countingSet k o d⟩, fun k ts d hits s htable hasc hlive => ?_,
    fun r d o resp s => settle_settled (SettlesAlike.refl s) r d o resp, fun s r p d data hpath hfits => ?_⟩
  · have h : CountedSet s hits := ⟨htable, hasc, hlive⟩
    refine ⟨fun p hp => ?_, fun j hj => accountSlots_slot_of_not_mem k ts d h hj, accountSlots_causes k ts d h,
      accountSlots_frame k ts d h⟩
    rw [accountSlots_slot_of_mem k ts d h hp, countedSlot_eq (hlive p hp).2]
    rfl
  · exact ⟨_, exec_downstreamResponse_outstanding hpath hfits,
      settle_settled ((SettlesAlike.refl s).freePort false) r d .okay (okayResponse r d data)⟩

end Sys2Proof.Proofs

namespace Sys2Proof.Proofs

open Sys2Proof.Machine

set_option Elab.async false

/-! ## Properties that a host request's course keeps

A request's course presents a request to the arbiter, settles, or gives a response, so that it keeps what these keep. -/

section
variable {P : State → Prop} (hport : ∀ f, Keeps P (requestPort f))
  (hsettle : ∀ r d o resp, Keeps P (settle r d o resp))

section
include hport hsettle

theorem courseFetched_keeps (r : BusRequest) (d : Decided) : Keeps P (courseFetched r d) := by
  intro s hs
  unfold courseFetched
  split
  · exact hsettle _ _ _ _ hs
  · split
    · exact hport _ hs
    · exact hsettle _ _ _ _ hs

theorem courseRead_keeps (r : BusRequest) (d : Decided) : Keeps P (courseRead r d) := by
  intro s hs
  unfold courseRead
  split
  · exact hsettle _ _ _ _ hs
  · exact courseFetched_keeps hport hsettle _ _ hs

theorem courseWrite_keeps (r : BusRequest) (d : Decided) : Keeps P (courseWrite r d) := by
  intro s hs
  unfold courseWrite
  split
  · exact hsettle _ _ _ _ hs
  · split
    · exact hport _ hs
    · exact hsettle _ _ _ _ hs

end

variable (hgive : ∀ r resp, Keeps P (giveResponse r resp)) (hraise : ∀ c, Keeps P (raise c))

section
include hport hsettle hgive hraise

theorem governActive_keeps (r : BusRequest) : Keeps P (governActive r) := by
  intro s hs
  unfold governActive
  split
  · exact hgive _ _ (hraise _ hs)
  · split
    · exact courseRead_keeps hport hsettle _ _ hs
    · exact courseWrite_keeps hport hsettle _ _ hs

theorem routeRequest_keeps (r : BusRequest) : Keeps P (routeRequest r) := by
  intro s hs
  unfold routeRequest
  split
  · exact governActive_keeps hport hsettle hgive hraise r hs
  · exact hport _ hs

end

variable (hfree : ∀ b, Keeps P (freePort b))
include hsettle hgive hraise hfree

theorem hostAnswered_keeps (f : Flight) (resp : BusResponse) : Keeps P (hostAnswered f resp) := by
  intro s hs
  unfold hostAnswered
  split
  · exact hgive _ _ (hfree _ (hraise _ hs))
  · exact hsettle _ _ _ _ (hfree _ (hraise _ hs))
  · exact hgive _ _ (hfree _ hs)
  · exact hsettle _ _ _ _ (hfree _ hs)

theorem hostTimedOut_keeps (f : Flight) : Keeps P (hostTimedOut f) := by
  intro s hs
  unfold hostTimedOut
  split
  · exact hgive _ _ (hfree _ (hraise _ hs))
  · exact hsettle _ _ _ _ (hfree _ (hraise _ hs))

end

/-- A row that checks its operand answers a next state only where the check is passed. -/
theorem nextIn_checked {P : State → Prop} {t : State} (h : P t) (checked : Bool) (r : Refusal) :
    NextIn P (if checked then .next t else .refused r) := by
  split
  · exact nextIn_next h
  · exact nextIn_refused P r

/-! ## The canonical form of the store: host requests -/

/-- A change that leaves the store keeps its canonical form. -/
theorem storeSound_of_store {f : State → State} (hf : ∀ s, (f s).store = s.store) : Keeps StoreSound f := fun s h => by
  rw [StoreSound, hf]; exact h

theorem settle_storeSound (r : BusRequest) (d : Decided) (o : RequestOutcome) (resp : BusResponse) :
    Keeps StoreSound (settle r d o resp) := fun _ h => wf_settle r d o resp h

theorem raise_storeSound (c : Cause) : Keeps StoreSound (raise c) := storeSound_of_store (raise_store c)

theorem requestPort_storeSound (f : Flight) : Keeps StoreSound (requestPort f) :=
  storeSound_of_store (requestPort_store f)

theorem giveResponse_storeSound (r : BusRequest) (resp : BusResponse) : Keeps StoreSound (giveResponse r resp) :=
  storeSound_of_store (giveResponse_store r resp)

theorem freePort_storeSound (b : Bool) : Keeps StoreSound (freePort b) := storeSound_of_store (freePort_store b)

theorem presentRequest_storeSound (r : BusRequest) : Keeps StoreSound (presentRequest r) := by
  intro s h
  unfold presentRequest
  split
  · exact routeRequest_keeps requestPort_storeSound settle_storeSound giveResponse_storeSound raise_storeSound _
      (storeSound_of_store sampleFbyp_store h)
  · exact h

theorem hostAnswered_storeSound (f : Flight) (resp : BusResponse) : Keeps StoreSound (hostAnswered f resp) :=
  hostAnswered_keeps settle_storeSound giveResponse_storeSound raise_storeSound freePort_storeSound f resp

theorem hostTimedOut_storeSound (f : Flight) : Keeps StoreSound (hostTimedOut f) :=
  hostTimedOut_keeps settle_storeSound giveResponse_storeSound raise_storeSound freePort_storeSound f

/-- Of a sweep's blocks those of a FILL write the store (R136). -/
theorem sweepAnswered_storeSound (r : SweepRecord) (b : Block) (resp : BusResponse) :
    Keeps StoreSound (sweepAnswered r b resp) := by
  intro s h
  cases resp with
  | error => simpa [StoreSound, sweepAnswered] using h
  | okay data => exact wf_blockAnswered r b data h

/-! ## The canonical form of the store: link commands -/

theorem withLink_storeSound (l : LinkInterface) : Keeps StoreSound (·.withLink l) := fun _ h => h

/-- Of the boundary commands STORE_WRITE writes the store (R52). -/
theorem carry_storeSound (b : BoundaryCommand) : Keeps StoreSound (carry b) := by
  cases b with
  | storeWrite offset poison words => exact fun _ h => wf_carryStoreWrite offset poison words h
  | _ => exact storeSound_of_store fun s => by simp [carry]

theorem boundary_storeSound (b : BoundaryCommand) : Keeps StoreSound (atBoundary b) :=
  atBoundary_keeps withLink_storeSound (carry_storeSound b)

theorem complete_storeSound (st : Status) (p : List Byte) : Keeps StoreSound (complete st p) :=
  complete_keeps withLink_storeSound st p

/-- A block's meaning that leaves the store, behind the STARTING check. -/
theorem unlessStarting_storeSound {f : State → State} (hf : ∀ s, (f s).store = s.store) :
    Keeps StoreSound (unlessStarting f) := unlessStarting_keeps withLink_storeSound (storeSound_of_store hf)

/-- The same behind the checks of a start command. -/
theorem checkStart_storeSound (inRange : Bool) {f : State → State} (hf : ∀ s, (f s).store = s.store) :
    Keeps StoreSound (checkStart inRange f) :=
  unlessStarting_storeSound fun s => by (repeat' split) <;> simp [hf]

/-- The same behind the checks of a command that names a slot. -/
theorem onSlot_storeSound (slot : Nat) {f : State → State} (hf : ∀ s, (f s).store = s.store) :
    Keeps StoreSound (onSlot slot f) := onSlot_keeps withLink_storeSound slot (storeSound_of_store hf)

theorem runCommand_storeSound (c : Command) : Keeps StoreSound (runCommand c) := by
  cases c with
  | storeWrite | disengage =>
    refine unlessStarting_keeps withLink_storeSound fun s h => ?_
    split
    · exact boundary_storeSound _ h
    · exact complete_storeSound _ _ h
  | slotState slot =>
    refine onSlot_keeps withLink_storeSound slot fun s h => ?_
    split
    · exact boundary_storeSound _ h
    · exact complete_storeSound _ _ h
  | slotAck slot => exact onSlot_keeps withLink_storeSound slot (boundary_storeSound _)
  | tableCommit | engage => exact unlessStarting_keeps withLink_storeSound (boundary_storeSound _)
  | nop | partStatus | alertStatus => exact storeSound_of_store fun s => complete_store _ _ s
  | ping echo => exact storeSound_of_store fun s => by simp only [runCommand, runPing]; split <;> simp
  | slotStage slot f => exact onSlot_storeSound slot fun s => by split <;> simp
  | slotUnstage slot | slotRead slot => exact onSlot_storeSound slot fun s => by simp
  | sweepCheck | sweepPush => exact checkStart_storeSound _ fun s => startSweep_store _ s
  | sweepFill => exact checkStart_storeSound _ fun s => takeSweepFill_store _ _ _ s
  | setConfig | alertAck | captureRead | captureAck | readRaw | readView | writeRaw | writeVerify | storeRead =>
    exact unlessStarting_storeSound fun s => by split <;> simp
  | softReset | tableDiscard | captureFlush | captureInfo | readConfig | lastAccess | sweepSuspend | sweepResume
  | sweepAbort | sweepStatus => exact unlessStarting_storeSound fun s => by simp

theorem considerNext_storeSound : Keeps StoreSound considerNext :=
  considerNext_keeps withLink_storeSound runCommand_storeSound

/-! ## The canonical form of the store: events and the bus clock -/

theorem timeoutEvent_storeSound : Keeps StoreSound timeoutEvent := by
  intro s h
  refine considerNext_storeSound ?_
  unfold expireTimeout
  split
  · split
    · exact hostTimedOut_storeSound _ h
    · exact h
  · split
    · simpa [StoreSound] using h
    · exact h
  · split
    · simpa [StoreSound] using h
    · exact h
  · exact h

theorem clockTimeout_storeSound : Keeps StoreSound clockTimeout := by
  intro s h
  unfold clockTimeout
  split
  · exact h
  · split
    · exact timeoutEvent_storeSound h
    · exact h

theorem busClock_storeSound : Keeps StoreSound busClock := by
  intro s h
  unfold busClock
  split
  · exact h
  · have expired : StoreSound (clockTimeout (clockMark (clockClear s))) :=
      clockTimeout_storeSound (by simpa [StoreSound] using wf_clockClear h)
    simpa [StoreSound] using expired

theorem completeClear_storeSound : Keeps StoreSound completeClear := by
  intro s h
  unfold completeClear
  split
  · split
    · exact h
    · exact wf_finishClear s
  · exact h

theorem execStoreUpset_storeSound {s : State} (h : StoreSound s) (offset : Nat) (data : Word) :
    NextIn StoreSound (execStoreUpset offset data s) := by
  unfold execStoreUpset
  split
  · exact nextIn_next (wf_storePut offset _ h)
  · exact nextIn_fault _ _

theorem execDownstreamResponse_storeSound {s : State} (h : StoreSound s) (resp : BusResponse) :
    NextIn StoreSound (execDownstreamResponse resp s) := by
  unfold execDownstreamResponse
  split
  · exact nextIn_checked (hostAnswered_storeSound _ _ h) _ _
  · exact nextIn_next h

theorem execLinkAccessResponse_storeSound {s : State} (h : StoreSound s) (resp : BusResponse) :
    NextIn StoreSound (execLinkAccessResponse resp s) := by
  unfold execLinkAccessResponse
  split
  · exact nextIn_checked (considerNext_storeSound (by simpa [StoreSound] using h)) _ _
  · exact nextIn_next h

theorem execSweepBlockResponse_storeSound {s : State} (h : StoreSound s) (resp : BusResponse) :
    NextIn StoreSound (execSweepBlockResponse resp s) := by
  unfold execSweepBlockResponse
  split
  · exact nextIn_checked (considerNext_storeSound (sweepAnswered_storeSound _ _ _ h)) _ _
  · exact nextIn_next h

/-- The rows that are no link command's. -/
theorem execEvent_storeSound (i : Instr) (s : State) (hi : i.command = none) (h : StoreSound s) :
    NextIn StoreSound (exec i s) := by
  cases i with
  | storeUpset offset data => exact execStoreUpset_storeSound h offset data
  | startupClearComplete => exact nextIn_next (completeClear_storeSound h)
  | hostRequestAccept r => exact nextIn_checked (presentRequest_storeSound r h) _ _
  | downstreamResponse resp => exact execDownstreamResponse_storeSound h resp
  | linkAccessResponse resp => exact execLinkAccessResponse_storeSound h resp
  | sweepBlockResponse resp => exact execSweepBlockResponse_storeSound h resp
  | downstreamTimeoutExpiry => exact nextIn_next (timeoutEvent_storeSound h)
  | powerOnReset | resetRelease | fbypRelease | markPulseEnd => exact nextIn_next h
  | fbypAssert => exact nextIn_next (storeSound_of_store assertFbyp_store h)
  | holdExpiry => exact nextIn_next (storeSound_of_store endHoldByDrop_store h)
  | timestampTick => exact nextIn_next (by split <;> simpa [StoreSound] using h)
  | lselAssert => exact nextIn_next (storeSound_of_store assertLsel_store h)
  | exchangeEnd ldi => exact nextIn_next (considerNext_storeSound (by simpa [StoreSound] using h))
  | commandStart => exact nextIn_next (considerNext_storeSound h)
  | unknownCommand seq code args =>
    have ran := runQueued_keeps withLink_storeSound runCommand_storeSound ⟨seq, code, args⟩
    exact nextIn_next (submit_keeps withLink_storeSound raise_storeSound _ ran h)
  | boundaryCommandExecution =>
    exact nextIn_next (considerNext_storeSound (executeBoundary_keeps carry_storeSound h))
  | _ => cases hi

/-- Settles O3. The store is written a word at a time (an upset, the start-up clear), by runs of words (STORE_WRITE, a FILL
block), by lanes (a shadow write) or emptied by the end of the clear; each keeps the canonical form, and no other change
touches the store. -/
theorem storeStaysCanonical : Obligations.StoreStaysCanonical := by
  intro s t hs hstep
  have hexec : ∀ (i : Instr) (s : State), StoreSound s → NextIn StoreSound (exec i s) := fun i _ =>
    exec_keeps withLink_storeSound raise_storeSound runCommand_storeSound execEvent_storeSound i
  exact step_keeps (fun _ _ h => h) busClock_storeSound hexec hs hstep

end Sys2Proof.Proofs

namespace Sys2Proof.Proofs

open Sys2Proof.Machine

set_option Elab.async false

/-! ## Upsets and the start-up clear -/

theorem exec_storeUpset_inside {offset : Nat} (data : Word) (s : State) (h : offset < Config.storeWords) :
    exec (.storeUpset offset data) s = .next (s.withStore (storePut s.store offset ⟨data, true⟩)) := if_pos h

/-- A running clear that completes out of reset ends as its last word ends it (R169). -/
theorem exec_startupClearComplete_running {s : State} {n : Nat} (hreset : s.pins.reset = false)
    (hclear : s.control.clear = .running n) : exec .startupClearComplete s = .next (finishClear s) := by
  simp [exec, execStartupClearComplete, completeClear, hreset, hclear]

/-- Settles O11. -/
theorem upsetAndStartupClear : Obligations.UpsetAndStartupClear := by
  refine ⟨fun s offset data hs ho => ?_, fun s n hreset hclear => ?_⟩
  · have read (a : Nat) := storeRead_storePut offset a ⟨data, true⟩ hs ho
    refine ⟨_, exec_storeUpset_inside data s ho, wf_storePut offset _ hs, ?_, fun a ha => ?_⟩
    · rw [read, if_pos rfl]
    · rw [read, if_neg ha]
  · exact ⟨_, exec_startupClearComplete_running hreset hclear, rfl, fun _ => rfl⟩

/-! ## Composition of read data -/

/-- The bits of a lane are set exactly where the lane is in the set (R23). -/
theorem laneBits_getLsbD : ∀ (l : Lanes), ∀ n < 4, ∀ i < 8, (laneBits l).getLsbD (8 * n + i) = l.getLsbD n := by
  decide

theorem mixLanes_lane (l : Lanes) (new old : Word) {n : Nat} (hn : n < 4) :
    (mixLanes l new old).extractLsb' (8 * n) 8 =
      if l.getLsbD n then new.extractLsb' (8 * n) 8 else old.extractLsb' (8 * n) 8 := by
  ext i hi
  have hbit : 8 * n + i < 32 := by omega
  have hmask : (laneBits l)[8 * n + i] = l.getLsbD n := by
    rw [← laneBits_getLsbD l n hn i hi, BitVec.getLsbD_eq_getElem hbit]
  cases hl : l.getLsbD n <;> simp [mixLanes, hmask, hl, hbit]

/-- Settles O23, by the parity of the fetched word and the mode of the decider. -/
theorem lanesComposed : Obligations.LanesComposed := by
  refine ⟨fun l new old n hn => mixLanes_lane l new old hn, fun snap d c w mem hc hw => ?_, fun snap d mem hc => ?_⟩
  · by_cases hb : w.bad = true
    · simp [composeWord, hc, hw, hb]
    · cases hm : c.mode <;> simp [composeWord, hc, hw, hb, hm]
  · simp [composeWord, hc]

/-! ## STORE_WRITE -/

theorem onOff_flag {n : Nat} (h : n ≤ 1) : onOff n = some (n == 1) := by
  match n, h with
  | 0, _ => rfl
  | 1, _ => rfl

theorem storeRange_eq_true {offset count : Nat} (h₁ : 1 ≤ count) (h₂ : count ≤ 12) (h₃ : offset + count ≤ 4096) :
    storeRange offset count = true := by
  simp [storeRange, Config.storeWords, h₁, h₂, h₃]

theorem storeConflict_eq_true {e : SweepEngine} {offset count o n : Nat} (hf : fillDestination e = some (o, n))
    (h : overlaps offset count o n = true) : storeConflict offset count e = true := by
  simp [storeConflict, hf, h]

theorem storeConflict_eq_false {e : SweepEngine} {offset count : Nat}
    (h : ∀ o n, fillDestination e = some (o, n) → overlaps offset count o n = false) :
    storeConflict offset count e = false := by
  unfold storeConflict
  split
  next o n hf => exact h o n hf
  next => rfl

theorem carryStoreWrite_conflict {offset : Nat} {words : List Word} {s : State} (poison : Bool)
    (h : storeConflict offset words.length s.sweep = true) :
    carryStoreWrite offset poison words s = complete .conflict [] s := if_pos h

theorem carryStoreWrite_taken {offset : Nat} {words : List Word} {s : State} (poison : Bool)
    (h : storeConflict offset words.length s.sweep = false) :
    carryStoreWrite offset poison words s =
      complete .ok [] (s.withStore (storeWriteWords poison s.store offset words)) :=
  if_neg (by simp [h])

/-- A command that its block answers at once with the store replaced. -/
theorem exec_of_store {i : Instr} {q : Byte} (c : Command) {s : State} (hr : Ready s) {st : Status} {p : List Byte}
    {m : Store}
    (hc : runCommand c (startedState (queuedOf q c) s) = complete st p ((startedState (queuedOf q c) s).withStore m))
    (h : i.command = some (q, c) := by rfl) :
    exec i s = .next (answered q st p { s with store := m }) := by
  rw [exec_of_ready c hr h, hc, complete_withStore, complete_startedState hr.1]; rfl

section
variable {m : Store} (hm : Store.wf m = true) {offset : Nat} {words : List Word} (hfit : offset + words.length ≤ 4096)
include hm hfit

theorem storeRead_storeWriteWords_inside (bad : Bool) {j : Nat} {w : Word} (hj : words[j]? = some w) :
    storeRead (storeWriteWords bad m offset words) (offset + j) = { data := w, bad := bad } := by
  obtain ⟨hlt, hw⟩ := List.getElem?_eq_some_iff.mp hj
  rw [storeRead_storeWriteWords bad offset _ words hm hfit, dif_pos (by omega)]
  simp [hw]

theorem storeRead_storeWriteWords_outside (bad : Bool) {a : Nat} (ha : a < offset ∨ offset + words.length ≤ a) :
    storeRead (storeWriteWords bad m offset words) a = storeRead m a := by
  rw [storeRead_storeWriteWords bad offset a words hm hfit, dif_neg (by omega)]

end

/-- Settles O41. -/
theorem storeWritten : Obligations.StoreWritten := by
  intro s q offset poison words hr hs hidle hone htwelve hfit hpoison
  have hboundary : boundaryOf (.storeWrite offset poison words) = some (.storeWrite offset (poison == 1) words) := by
    simp [boundaryOf, storeRange_eq_true hone htwelve hfit, onOff_flag hpoison]
  have hrun := (runCommand_of_boundaryOf hboundary (started_past hr (queuedOf q (.storeWrite offset poison words)))).trans
    (atBoundary_of_idle (started_idle hidle _) _)
  refine ⟨fun o n hf ho => ?_, fun hfree => ⟨storeWriteWords (poison == 1) s.store offset words, ?_, ?_, ?_, ?_⟩⟩
  · exact exec_of_answer (.storeWrite offset poison words) hr
      (hrun.trans (carryStoreWrite_conflict _ (storeConflict_eq_true hf ho)))
  · exact exec_of_store (.storeWrite offset poison words) hr
      (hrun.trans (carryStoreWrite_taken _ (storeConflict_eq_false hfree)))
  · exact wf_storeWriteWords _ _ _ hs
  · exact fun j w hj => storeRead_storeWriteWords_inside hs hfit _ hj
  · exact fun a ha => storeRead_storeWriteWords_outside hs hfit _ ha

end Sys2Proof.Proofs

namespace Sys2Proof.Proofs

open Sys2Proof.Machine

set_option Elab.async false

/-! ## Shadowed words -/

theorem passedWords_getElem? (d : Decided) {ws : List WriteWord} {i : Nat} {w : WriteWord} (h : ws[i]? = some w) :
    (passedWords d ws)[i]? = some
      (if (d.words[i]?).any (decidedBy d.snapshot .shadow) then { w with lanes := 0 } else w) := by
  simp [passedWords, h]

@[simp] theorem passedWords_length (d : Decided) (ws : List WriteWord) : (passedWords d ws).length = ws.length := by
  simp [passedWords]

/-! ### The report to the sweep engine -/

/-- A shadow write of no lane disturbs no sweep (R145). -/
@[simp] theorem reportShadowWrite_no_lanes (o : Nat) (s : State) : reportShadowWrite o 0 s = s := by
  unfold reportShadowWrite
  split
  · exact if_neg (by simp)
  · rfl

/-- The sweep engine does not look at the store when it takes a report (R70). -/
theorem reportShadowWrite_withStore (o : Nat) (l : Lanes) (s : State) (m : Store) :
    reportShadowWrite o l (s.withStore m) = (reportShadowWrite o l s).withStore m := by
  unfold reportShadowWrite
  simp only [State.withStore_sweep]
  split
  · split <;> rfl
  · rfl

/-! ### One word -/

theorem storeWriteLanes_no_lanes (m : Store) (a : Nat) (w : Word) : storeWriteLanes m a 0 w = m := if_pos rfl

/-- Inside the store a write of lanes reads back wherever it was aimed: the store has no word above offset 4,095
(R45, R46). -/
theorem storeRead_storeWriteLanes_inside {m : Store} (a : Nat) {b : Nat} (l : Lanes) (w : Word) (hm : Store.wf m = true)
    (hb : b < Config.storeWords) :
    storeRead (storeWriteLanes m a l w) b =
      if a = b ∧ l ≠ 0 then { data := mixLanes l w (storeRead m b).data, bad := false } else storeRead m b := by
  by_cases ha : a < Config.storeWords
  · rw [storeRead_storeWriteLanes a b l w hm ha]
    by_cases hab : a = b
    · simp [hab]
    · simp [hab, Ne.symm hab]
  · have hsame : storeWriteLanes m a l w = m := by simp [storeWriteLanes, storePut, ha]
    rw [hsame, if_neg (by omega)]

/-- A word that a SHADOW slot decided goes to its store word, and the sweep engine hears of it (R66, R70). -/
theorem shadowWrites_shadowed {snap : List SnapSlot} {d : WordDecision} {c : SlotConfig} (hc : deciderConfig snap d = some c)
    (hmode : c.mode = .shadow) (w : WriteWord) (s : State) :
    shadowWrites snap [(d, w)] s = reportShadowWrite (storeIndex c d.addr) w.lanes
      (s.withStore (storeWriteLanes s.store (storeIndex c d.addr) w.lanes w.data)) := by
  simp only [shadowWrites, hc, hmode, if_true]

/-- A word that no SHADOW slot decided changes nothing at the settle. -/
theorem shadowWrites_passed {snap : List SnapSlot} {d : WordDecision}
    (h : ∀ c, deciderConfig snap d = some c → c.mode ≠ .shadow) (w : WriteWord) (s : State) :
    shadowWrites snap [(d, w)] s = s := by
  unfold shadowWrites
  split
  next c hc => exact if_neg (h c hc)
  next => rfl

/-- What one word of a write makes of the store word at an offset (R66). -/
def shadowedWord (snap : List SnapSlot) (a : Nat) (old : StoreWord) (p : WordDecision × WriteWord) : StoreWord :=
  match deciderConfig snap p.1 with
  | some c =>
    if c.mode = .shadow ∧ storeIndex c p.1.addr = a ∧ p.2.lanes ≠ 0 then
      { data := mixLanes p.2.lanes p.2.data old.data, bad := false }
    else old
  | none => old

theorem storeRead_shadowWrites_single (snap : List SnapSlot) (p : WordDecision × WriteWord) {s : State}
    (hs : StoreSound s) {a : Nat} (ha : a < Config.storeWords) :
    storeRead (shadowWrites snap [p] s).store a = shadowedWord snap a (storeRead s.store a) p := by
  obtain ⟨d, w⟩ := p
  cases hc : deciderConfig snap d with
  | none => rw [shadowWrites_passed (by simp [hc])]; simp [shadowedWord, hc]
  | some c =>
    by_cases hmode : c.mode = .shadow
    · rw [shadowWrites_shadowed hc hmode]
      simp [shadowedWord, hc, hmode, storeRead_storeWriteLanes_inside _ _ _ hs ha]
    · rw [shadowWrites_passed (by simp [hc, hmode])]
      simp [shadowedWord, hc, hmode]

/-! ### All words, in ascending order -/

theorem shadowWrites_cons (snap : List SnapSlot) (p : WordDecision × WriteWord) (rest : List (WordDecision × WriteWord))
    (s : State) : shadowWrites snap (p :: rest) s = shadowWrites snap rest (shadowWrites snap [p] s) := by
  simp only [shadowWrites]
  split
  · split <;> rfl
  · rfl

/-- Each word works on what the words below it left, so that the later one's lanes stand (R66). -/
theorem storeRead_shadowWrites (snap : List SnapSlot) (ws : List (WordDecision × WriteWord)) {s : State}
    (hs : StoreSound s) {a : Nat} (ha : a < Config.storeWords) :
    storeRead (shadowWrites snap ws s).store a = ws.foldl (shadowedWord snap a) (storeRead s.store a) := by
  induction ws generalizing s with
  | nil => rfl
  | cons p rest ih =>
    rw [shadowWrites_cons, ih (wf_shadowWrites snap [p] hs), storeRead_shadowWrites_single snap p hs ha, List.foldl_cons]

/-- Settles O27. -/
theorem shadowedWordsGoToTheStore : Obligations.ShadowedWordsGoToTheStore := by
  refine ⟨fun d ws i w h => passedWords_getElem? d h, passedWords_length, fun s snap d c w hs hc hmode hin => ?_,
    fun s snap ws hs => ⟨wf_shadowWrites snap ws hs, fun a ha => storeRead_shadowWrites snap ws hs ha⟩⟩
  rw [shadowWrites_shadowed hc hmode]
  refine ⟨fun hlanes a => ?_, fun hlanes => ?_, ?_⟩
  · rw [reportShadowWrite_store, State.withStore_store, storeRead_storeWriteLanes _ a _ _ hs hin]
    exact if_congr (and_iff_right hlanes) rfl rfl
  · rw [hlanes, reportShadowWrite_no_lanes, storeWriteLanes_no_lanes]; rfl
  · rw [reportShadowWrite_withStore]; rfl

end Sys2Proof.Proofs

namespace Sys2Proof.Proofs

open Sys2Proof.Machine

set_option Elab.async false

/-! ## What a step can do to the slot table

The table is written by a settle, by the commands of the slot table, and by a reset; every other change leaves it. A
property of the table alone that these few keep is kept by every step. -/

/-- A property of states that bears on the table alone, and is kept by all that writes the table. -/
structure TableRules (P : State → Prop) : Prop where
  of_table : ∀ {s t : State}, t.table = s.table → P s → P t
  reset : ∀ {s : State}, s.table = resetTable → P s
  settle_kept : ∀ (r : BusRequest) (d : Decided) (o : RequestOutcome) (resp : BusResponse), Keeps P (settle r d o resp)
  stage_kept : ∀ {slot : Nat} {f : SlotFields} {c : SlotConfig}, checkSlotFields slot f = .ok c →
    Keeps P (fun s => s.setSlot slot (stageSlot c (s.slot slot)))
  unstage_kept : ∀ slot : Nat, Keeps P (fun s => s.setSlot slot (unstageSlot (s.slot slot)))
  discard_kept : Keeps P (fun s => s.withTable (s.table.map unstageSlot))
  commit_kept : Keeps P (fun s => s.withTable (s.table.map commitSlot))
  named_kept : ∀ (slot : Nat) (st : SlotState),
    Keeps P (fun s => s.setStatus slot (namedStatus st (s.slot slot).status))
  acked_kept : ∀ slot : Nat, Keeps P (fun s => s.setStatus slot (ackedStatus (s.slot slot).status))

namespace TableRules

variable {P : State → Prop} (rules : TableRules P)
include rules

/-- A change that leaves the table keeps the property. -/
theorem keeps_of_table {f : State → State} (hf : ∀ s, (f s).table = s.table) : Keeps P f := fun s h =>
  rules.of_table (hf s) h

theorem withLink_kept (l : LinkInterface) : Keeps P (·.withLink l) := rules.keeps_of_table fun _ => rfl

theorem raise_kept (c : Cause) : Keeps P (raise c) := rules.keeps_of_table (raise_table c)

theorem complete_kept (st : Status) (p : List Byte) : Keeps P (complete st p) :=
  rules.keeps_of_table (complete_table st p)

/-! ### Host requests and sweeps -/

theorem requestPort_kept (f : Flight) : Keeps P (requestPort f) := rules.keeps_of_table (requestPort_table f)

theorem giveResponse_kept (r : BusRequest) (resp : BusResponse) : Keeps P (giveResponse r resp) :=
  rules.keeps_of_table (giveResponse_table r resp)

theorem freePort_kept (b : Bool) : Keeps P (freePort b) := rules.keeps_of_table (freePort_table b)

theorem presentRequest_kept (r : BusRequest) : Keeps P (presentRequest r) := by
  intro s h
  unfold presentRequest
  split
  · exact routeRequest_keeps rules.requestPort_kept rules.settle_kept rules.giveResponse_kept rules.raise_kept _
      (rules.of_table (sampleFbyp_table _) (rules.of_table (s := s) rfl h))
  · exact rules.of_table (s := s) rfl h

theorem hostAnswered_kept (f : Flight) (resp : BusResponse) : Keeps P (hostAnswered f resp) :=
  hostAnswered_keeps rules.settle_kept rules.giveResponse_kept rules.raise_kept rules.freePort_kept f resp

theorem hostTimedOut_kept (f : Flight) : Keeps P (hostTimedOut f) :=
  hostTimedOut_keeps rules.settle_kept rules.giveResponse_kept rules.raise_kept rules.freePort_kept f

theorem softResetChange_kept (s : State) : P (softResetChange s) := rules.reset (complete_table _ _ _)

theorem carrySoftReset_kept : Keeps P carrySoftReset := by
  intro s h
  unfold carrySoftReset
  split
  · exact rules.softResetChange_kept s
  · split
    · exact rules.softResetChange_kept _
    · exact rules.withLink_kept _ h

theorem afterOwnEnd_kept : Keeps P afterOwnEnd := by
  intro s h
  unfold afterOwnEnd
  split
  · exact rules.complete_kept _ _ h
  · exact rules.complete_kept _ _ h
  · exact rules.softResetChange_kept s
  · exact h

theorem blockCompleted_kept : Keeps P blockCompleted := by
  intro s h
  unfold blockCompleted
  split
  · exact h
  · split
    · exact rules.afterOwnEnd_kept (rules.of_table (endSweep_table _ s) h)
    · split
      · exact rules.complete_kept _ _ (rules.of_table (s := s) rfl h)
      · exact rules.complete_kept _ _ (rules.of_table (endSweep_table _ s) h)
      · exact rules.softResetChange_kept s
      · exact rules.of_table (takeBlock_table s) h

/-- The answer to a block reaches the table by the completion of the block alone. -/
theorem blockAnswered_kept (r : SweepRecord) (b : Block) (data : List Word) : Keeps P (blockAnswered r b data) := by
  intro s h
  have completed {t : State} (ht : t.table = s.table) : P (blockCompleted (freePort false t)) :=
    rules.blockCompleted_kept (rules.freePort_kept _ (rules.of_table ht h))
  unfold blockAnswered
  split
  · exact completed (updateRecord_table _ _)
  · exact completed (updateRecord_table _ _)
  · exact completed (updateRecord_table _ _)
  · exact completed (updateRecord_table _ _)
  · exact rules.of_table (by simp) h

theorem blockFailed_kept (a : Bool) (c : FailCause) (b : Block) : Keeps P (blockFailed a c b) := fun _ h =>
  rules.afterOwnEnd_kept (rules.of_table (failSweep_table _ _ _) (rules.freePort_kept _ h))

theorem sweepAnswered_kept (r : SweepRecord) (b : Block) (resp : BusResponse) : Keeps P (sweepAnswered r b resp) := by
  intro s h
  cases resp with
  | error => exact rules.blockFailed_kept _ _ _ (rules.raise_kept _ h)
  | okay data => exact rules.blockAnswered_kept r b data h

/-! ### Link commands -/

theorem carry_kept (b : BoundaryCommand) : Keeps P (carry b) := by
  intro s h
  cases b with
  | tableCommit =>
    simp only [carry, carryTableCommit]
    split
    · exact rules.complete_kept _ _ h
    · exact rules.complete_kept _ _ (rules.commit_kept h)
  | slotState slot st =>
    simp only [carry, carrySlotState]
    split
    · exact rules.complete_kept _ _ h
    · exact rules.complete_kept _ _ (rules.named_kept slot st h)
  | slotAck slot => exact rules.complete_kept _ _ (rules.acked_kept slot h)
  | storeWrite offset poison words => exact rules.of_table (carryStoreWrite_table offset poison words s) h
  | engage => exact rules.of_table (carryEngage_table s) h
  | disengage force => exact rules.of_table (carryDisengage_table force s) h
  | softReset => exact rules.carrySoftReset_kept h

theorem atBoundary_kept (b : BoundaryCommand) : Keeps P (atBoundary b) :=
  atBoundary_keeps rules.withLink_kept (rules.carry_kept b)

/-- A block's meaning that leaves the table, behind the STARTING check. -/
theorem unlessStarting_kept {f : State → State} (hf : ∀ s, (f s).table = s.table) : Keeps P (unlessStarting f) :=
  unlessStarting_keeps rules.withLink_kept (rules.keeps_of_table hf)

/-- The same behind the checks of a start command. -/
theorem checkStart_kept (inRange : Bool) {f : State → State} (hf : ∀ s, (f s).table = s.table) :
    Keeps P (checkStart inRange f) :=
  rules.unlessStarting_kept fun s => by (repeat' split) <;> simp [hf]

theorem runSlotStage_kept (slot : Nat) (f : SlotFields) : Keeps P (runSlotStage slot f) := by
  refine onSlot_keeps rules.withLink_kept slot fun s h => ?_
  split
  next c hc => exact rules.complete_kept _ _ (rules.stage_kept hc h)
  next => exact rules.complete_kept _ _ h

theorem runSoftReset_kept : Keeps P runSoftReset := by
  refine unlessStarting_keeps rules.withLink_kept fun s h => ?_
  unfold takeSoftReset carryAtIdle
  split
  · exact rules.carrySoftReset_kept (rules.of_table (by simp) h)
  · exact rules.of_table (by simp) h

theorem runCommand_kept (c : Command) : Keeps P (runCommand c) := by
  cases c with
  | slotStage slot f => exact rules.runSlotStage_kept slot f
  | slotUnstage slot =>
    exact onSlot_keeps rules.withLink_kept slot fun _ h => rules.complete_kept _ _ (rules.unstage_kept slot h)
  | tableDiscard =>
    exact unlessStarting_keeps rules.withLink_kept fun _ h => rules.complete_kept _ _ (rules.discard_kept h)
  | softReset => exact rules.runSoftReset_kept
  | storeWrite | disengage =>
    refine unlessStarting_keeps rules.withLink_kept fun s h => ?_
    split
    · exact rules.atBoundary_kept _ h
    · exact rules.complete_kept _ _ h
  | slotState slot =>
    refine onSlot_keeps rules.withLink_kept slot fun s h => ?_
    split
    · exact rules.atBoundary_kept _ h
    · exact rules.complete_kept _ _ h
  | slotAck slot => exact onSlot_keeps rules.withLink_kept slot (rules.atBoundary_kept _)
  | tableCommit | engage => exact unlessStarting_keeps rules.withLink_kept (rules.atBoundary_kept _)
  | nop | partStatus | alertStatus => exact rules.keeps_of_table fun s => complete_table _ _ s
  | ping echo => exact rules.keeps_of_table fun s => by simp only [runCommand, runPing]; split <;> simp
  | slotRead slot => exact onSlot_keeps rules.withLink_kept slot (rules.keeps_of_table fun s => complete_table _ _ s)
  | sweepCheck | sweepPush => exact rules.checkStart_kept _ fun s => startSweep_table _ s
  | sweepFill => exact rules.checkStart_kept _ fun s => takeSweepFill_table _ _ _ s
  | setConfig | alertAck | captureRead | captureAck | readRaw | readView | writeRaw | writeVerify | storeRead =>
    exact rules.unlessStarting_kept fun s => by split <;> simp
  | captureFlush | captureInfo | readConfig | lastAccess | sweepSuspend | sweepResume | sweepAbort | sweepStatus =>
    exact rules.unlessStarting_kept fun s => by simp

theorem considerNext_kept : Keeps P considerNext := considerNext_keeps rules.withLink_kept rules.runCommand_kept

/-! ### Events and the bus clock -/

theorem timeoutEvent_kept : Keeps P timeoutEvent := by
  intro s h
  refine rules.considerNext_kept ?_
  unfold expireTimeout
  split
  · split
    · exact rules.hostTimedOut_kept _ h
    · exact h
  · split
    · exact rules.of_table (linkTimedOut_table _ s) h
    · exact h
  · split
    · exact rules.blockFailed_kept _ _ _ (rules.raise_kept _ h)
    · exact h
  · exact h

theorem clockTimeout_kept : Keeps P clockTimeout := by
  intro s h
  unfold clockTimeout
  split
  · exact h
  · split
    · exact rules.timeoutEvent_kept h
    · exact rules.of_table (s := s) rfl h

/-- Of a bus clock's counts only an expired timeout reaches the table. -/
theorem busClock_kept : Keeps P busClock := by
  intro s h
  unfold busClock
  split
  · exact h
  · have expired : P (clockTimeout (clockMark (clockClear s))) :=
      rules.clockTimeout_kept (rules.of_table (by simp) h)
    exact rules.of_table (by simp) expired

theorem execDownstreamResponse_kept {s : State} (h : P s) (resp : BusResponse) :
    NextIn P (execDownstreamResponse resp s) := by
  unfold execDownstreamResponse
  split
  · exact nextIn_checked (rules.hostAnswered_kept _ _ h) _ _
  · exact nextIn_next h

theorem execLinkAccessResponse_kept {s : State} (h : P s) (resp : BusResponse) :
    NextIn P (execLinkAccessResponse resp s) := by
  unfold execLinkAccessResponse
  split
  · exact nextIn_checked (rules.considerNext_kept (rules.of_table (linkAccessAnswered_table _ _ s) h)) _ _
  · exact nextIn_next h

theorem execSweepBlockResponse_kept {s : State} (h : P s) (resp : BusResponse) :
    NextIn P (execSweepBlockResponse resp s) := by
  unfold execSweepBlockResponse
  split
  · exact nextIn_checked (rules.considerNext_kept (rules.sweepAnswered_kept _ _ _ h)) _ _
  · exact nextIn_next h

theorem execStoreUpset_kept {s : State} (h : P s) (offset : Nat) (data : Word) :
    NextIn P (execStoreUpset offset data s) := by
  unfold execStoreUpset
  split
  · exact nextIn_next (rules.of_table (s := s) rfl h)
  · exact nextIn_fault _ _

/-- The rows that are no link command's. -/
theorem execEvent_kept (i : Instr) (s : State) (hi : i.command = none) (h : P s) : NextIn P (exec i s) := by
  cases i with
  | powerOnReset => exact nextIn_next (rules.reset rfl)
  | resetRelease | fbypRelease | markPulseEnd => exact nextIn_next (rules.of_table (s := s) rfl h)
  | startupClearComplete => exact nextIn_next (rules.of_table (completeClear_table s) h)
  | fbypAssert => exact nextIn_next (rules.of_table (assertFbyp_table s) h)
  | storeUpset offset data => exact rules.execStoreUpset_kept h offset data
  | hostRequestAccept r => exact nextIn_checked (rules.presentRequest_kept r h) _ _
  | downstreamResponse resp => exact rules.execDownstreamResponse_kept h resp
  | linkAccessResponse resp => exact rules.execLinkAccessResponse_kept h resp
  | sweepBlockResponse resp => exact rules.execSweepBlockResponse_kept h resp
  | downstreamTimeoutExpiry => exact nextIn_next (rules.timeoutEvent_kept h)
  | holdExpiry => exact nextIn_next (rules.of_table (endHoldByDrop_table s) h)
  | timestampTick => exact nextIn_next (rules.of_table (by split <;> simp) h)
  | lselAssert => exact nextIn_next (rules.of_table (assertLsel_table s) h)
  | exchangeEnd ldi => exact nextIn_next (rules.considerNext_kept (rules.of_table (by simp) h))
  | commandStart => exact nextIn_next (rules.considerNext_kept h)
  | unknownCommand seq code args =>
    have ran := runQueued_keeps rules.withLink_kept rules.runCommand_kept ⟨seq, code, args⟩
    exact nextIn_next (submit_keeps rules.withLink_kept rules.raise_kept _ ran h)
  | boundaryCommandExecution => exact nextIn_next (rules.considerNext_kept (executeBoundary_keeps rules.carry_kept h))
  | _ => cases hi

theorem exec_kept (i : Instr) (s : State) : P s → NextIn P (exec i s) := fun h =>
  exec_keeps rules.withLink_kept rules.raise_kept rules.runCommand_kept rules.execEvent_kept i h

/-- A step keeps what all that writes the table keeps. -/
theorem step_kept {s : State} (h : P s) : NextIn P (step s) :=
  step_keeps (fun _ => rules.keeps_of_table fun _ => rfl) rules.busClock_kept rules.exec_kept h

end TableRules

end Sys2Proof.Proofs

namespace Sys2Proof.Proofs

open Sys2Proof.Machine

set_option Elab.async false

/-! ## Slots below their limits: one slot

While a hit is counted, its slot may stand at its limit and still be LIVE; every other slot stays below its own. -/

/-- Every slot but one is below its limit. -/
def BelowElsewhere (s : State) (i : Nat) : Prop :=
  ∀ (j : Nat) (x : Slot), s.table[j]? = some x → j ≠ i → belowLimit x

theorem belowElsewhere_of_limitsSound {s : State} (h : LimitsSound s) (i : Nat) : BelowElsewhere s i :=
  fun _ _ hx _ => h _ (List.mem_of_getElem? hx)

/-- A slot number past the table reads as a reset slot, which is IDLE. -/
theorem slot_belowLimit {s : State} (h : LimitsSound s) (i : Nat) : belowLimit (s.slot i) := by
  rw [State.slot, slotAt, List.getD_eq_getElem?_getD]
  cases hx : s.table[i]? with
  | none => exact nofun
  | some x => exact h x (List.mem_of_getElem? hx)

theorem limitsSound_of_belowElsewhere {s : State} {i : Nat} (h : BelowElsewhere s i) (hx : belowLimit (s.slot i)) :
    LimitsSound s := by
  intro x hmem
  obtain ⟨j, hj⟩ := List.getElem?_of_mem hmem
  by_cases e : j = i
  · subst e
    simpa [State.slot, slotAt, List.getD_eq_getElem?_getD, hj] using hx
  · exact h j x hj e

/-- The one slot written below its limit mends the table. -/
theorem mendSlot_limitsSound {s : State} {i : Nat} {x : Slot} (h : BelowElsewhere s i) (hx : belowLimit x) :
    LimitsSound (s.setSlot i x) := by
  intro y hmem
  obtain ⟨j, hj⟩ := List.getElem?_of_mem hmem
  rw [State.setSlot_table, List.getElem?_set] at hj
  split at hj
  next =>
    split at hj
    next => cases hj; exact hx
    next => cases hj
  next hne => exact h j y hj (Ne.symm hne)

theorem setSlot_limitsSound {s : State} {i : Nat} {x : Slot} (h : LimitsSound s) (hx : belowLimit x) :
    LimitsSound (s.setSlot i x) := mendSlot_limitsSound (belowElsewhere_of_limitsSound h i) hx

/-- Whatever is written to the slot itself, the others stay below their limits. -/
theorem setStatus_belowElsewhere {s : State} {i : Nat} (h : BelowElsewhere s i) (st : SlotStatus) :
    BelowElsewhere (s.setStatus i st) i := by
  intro j x hj hne
  rw [State.setStatus_table, List.getElem?_set_ne (Ne.symm hne)] at hj
  exact h j x hj hne

/-- The limits bear on the table alone. -/
theorem limitsSound_of_table {s t : State} (ht : t.table = s.table) (h : LimitsSound s) : LimitsSound t := by
  rw [LimitsSound, ht]; exact h

/-! ## Slots below their limits: a settle -/

/-- A hit that does not reach the limit leaves the count below it (R78, R83). -/
theorem countHit_belowLimit {x : Slot} (h : belowLimit x) (hreach : reachesLimit x = false) (k : Kind) (ts : Word)
    (a : Nat) : belowLimit { x with status := countHit k ts a x.status } := by
  intro (hlive : x.status.state = .live) hlimit haction
  have hbelow := h hlive hlimit haction
  have hmissed : x.status.count + 1 ≠ x.active.limit := by simpa [reachesLimit, hlimit] using hreach
  change min (x.status.count + 1) 65535 < x.active.limit
  omega

/-- A SPENT slot is not LIVE (R85). -/
theorem spend_limitsSound {s : State} {i : Nat} (h : BelowElsewhere s i) : LimitsSound (spend i s) :=
  mendSlot_limitsSound h nofun

/-- A hand-off makes its target LIVE with count 0 (R86). -/
theorem handOff_limitsSound (i target : Nat) : Keeps LimitsSound (handOff i target) := by
  intro s h
  unfold handOff
  split
  · have taken : LimitsSound (s.setStatus target { (s.slot target).status with state := .live, count := 0 }) :=
      setSlot_limitsSound h fun _ hlimit _ => Nat.pos_of_ne_zero hlimit
    exact limitsSound_of_table (reportHandoff_table _ _) taken
  · have missed : LimitsSound (s.setStatus i { (s.slot i).status with handoffMissed := true }) :=
      setSlot_limitsSound h (slot_belowLimit h i)
    exact limitsSound_of_table (raise_table _ _) missed

/-- The limit action takes the slot out of LIVE, unless it is NOTIFY (R84 to R86). -/
theorem limitAction_limitsSound {s : State} {i : Nat} (h : BelowElsewhere s i) : LimitsSound (limitAction i s) := by
  unfold limitAction
  split
  next hnotify => exact limitsSound_of_belowElsewhere h fun _ _ haction => absurd hnotify haction
  next => exact spend_limitsSound h
  next => exact handOff_limitsSound _ _ (spend_limitsSound h)

theorem hitTraced_table (k : Kind) (ts : Word) (i a : Nat) (s : State) :
    (hitTraced k ts i a s).table = (s.setStatus i (countHit k ts a (s.slot i).status)).table := by
  simp [hitTraced, State.setStatus_table]

theorem accountHit_limitsSound (k : Kind) (ts : Word) (i a : Nat) : Keeps LimitsSound (accountHit k ts i a) := by
  intro s h
  cases hreach : reachesLimit (s.slot i) with
  | false =>
    rw [accountHit_of_below hreach]
    refine limitsSound_of_table (hitTraced_table k ts i a s) ?_
    exact setSlot_limitsSound h (countHit_belowLimit (slot_belowLimit h i) hreach k ts a)
  | true =>
    rw [accountHit_of_limit hreach]
    have counted := setStatus_belowElsewhere (belowElsewhere_of_limitsSound h i) (countHit k ts a (s.slot i).status)
    refine limitAction_limitsSound ?_
    rwa [BelowElsewhere, limitReached, raise_table, hitTraced_table]

theorem flagFault_limitsSound (i : Nat) : Keeps LimitsSound (flagFault i) := fun s h =>
  limitsSound_of_table (raise_table _ (s.setStatus i { (s.slot i).status with storeFault := true }))
    (setSlot_limitsSound h (slot_belowLimit h i))

theorem accountFault_limitsSound (d : Decided) (i : Nat) : Keeps LimitsSound (accountFault d i) := by
  intro s h
  unfold accountFault
  split
  · split
    · exact spend_limitsSound (belowElsewhere_of_limitsSound (flagFault_limitsSound i h) i)
    · exact flagFault_limitsSound i h
  · exact h

theorem accountSlots_limitsSound (k : Kind) (ts : Word) (d : Decided) (hits : List (Nat × Nat)) :
    Keeps LimitsSound (accountSlots k ts d hits) := by
  induction hits with
  | nil => exact fun _ h => h
  | cons p rest ih => exact fun _ h => ih (accountFault_limitsSound d p.1 (accountHit_limitsSound k ts p.1 p.2 h))

theorem settle_limitsSound (r : BusRequest) (d : Decided) (o : RequestOutcome) (resp : BusResponse) :
    Keeps LimitsSound (settle r d o resp) := fun s h =>
  limitsSound_of_table (settle_table r d o resp s) (accountSlots_limitsSound _ _ d _ h)

/-! ## Slots below their limits: the commands of the slot table -/

/-- A reset slot is IDLE (R21). -/
theorem limitsSound_of_resetTable {s : State} (hs : s.table = resetTable) : LimitsSound s := by
  intro x hx
  obtain rfl := List.eq_of_mem_replicate (hs ▸ hx)
  exact nofun

theorem map_limitsSound {f : Slot → Slot} (hf : ∀ x, belowLimit x → belowLimit (f x)) :
    Keeps LimitsSound (fun s => s.withTable (s.table.map f)) := by
  intro s h x hx
  obtain ⟨y, hy, rfl⟩ := List.mem_map.mp hx
  exact hf y (h y hy)

/-- A slot committed starts afresh with count 0 (R16). -/
theorem commitSlot_belowLimit (x : Slot) (h : belowLimit x) : belowLimit (commitSlot x) := by
  unfold commitSlot
  split
  · exact fun _ hlimit _ => Nat.pos_of_ne_zero hlimit
  · exact h

/-- SLOT_STATE to LIVE sets the hit count to 0 (R17). -/
theorem namedStatus_belowLimit (st : SlotState) (x : Slot) :
    belowLimit { x with status := namedStatus st x.status } := by
  intro (hlive : st = .live) hlimit _
  change (if st = .live then 0 else x.status.count) < x.active.limit
  rw [if_pos hlive]
  exact Nat.pos_of_ne_zero hlimit

/-- Staging and SLOT_ACK leave the active configuration, the state and the count, on which alone the limit bears. -/
theorem limitsSound_tableRules : TableRules LimitsSound where
  of_table := limitsSound_of_table
  reset := limitsSound_of_resetTable
  settle_kept := settle_limitsSound
  stage_kept := fun _ _ h => setSlot_limitsSound h (slot_belowLimit h _)
  unstage_kept := fun slot _ h => setSlot_limitsSound h (slot_belowLimit h slot)
  discard_kept := map_limitsSound (f := unstageSlot) fun _ h => h
  commit_kept := map_limitsSound commitSlot_belowLimit
  named_kept := fun slot st s h => setSlot_limitsSound h (namedStatus_belowLimit st (s.slot slot))
  acked_kept := fun slot _ h => setSlot_limitsSound h (slot_belowLimit h slot)

/-- Settles O5. A hit counts one up to a limit that it does not reach; the hit that reaches it takes its slot out of
LIVE, and every slot that becomes LIVE starts at count 0. Nothing else changes a count, a limit or a state. -/
theorem slotsStayBelowTheirLimit : Obligations.SlotsStayBelowTheirLimit := fun _ _ hs hstep =>
  limitsSound_tableRules.step_kept hs hstep

end Sys2Proof.Proofs

namespace Sys2Proof.Proofs

open Sys2Proof.Machine

set_option Elab.async false

/-! ## The trace of a hit and the limit action -/

/-- Settles O24: below its limit a hit leaves its trace, and takes no limit action. -/
theorem hitAccounted : Obligations.HitAccounted := by
  intro s k ts i a htable hi hbelow
  have hslot := hitTraced_slot htable hi k ts a
  have hpins := accountHit_pins k ts i a s
  rw [accountHit_of_below hbelow] at hpins ⊢
  refine ⟨?_, ?_, fun j hj => ?_, hpins, hitTraced_causes k ts i a s, ?_, ?_⟩
  · rw [hslot, if_pos rfl]; rfl
  · rw [hslot, if_pos rfl]
  · rw [hslot, if_neg hj]
  · simp [hitTraced]
  · simp [hitTraced]

/-- Of a slot that reaches its limit the hand-off succeeds where the action is HANDOFF and the target ARMED (R86, R87). -/
theorem passesOn_of_reaches {s : State} {i : Nat} (h : reachesLimit (s.slot i) = true) :
    passesOn s i =
      ((s.slot i).active.action == .handoff && (s.slot (s.slot i).active.link).status.state == .armed) := by
  rw [passesOn, handsOff, h, Bool.true_and]

theorem handsOff_of_reaches {s : State} {i : Nat} (h : reachesLimit (s.slot i) = true) :
    handsOff s i = ((s.slot i).active.action == .handoff) := by
  rw [handsOff, h, Bool.true_and]

/-- Settles O25: at its limit a hit takes the courses of `HitCourse` past the first, so that the slots, the causes and the
report follow from whether the hand-off finds its target ARMED. -/
theorem limitActionCarriedOut : Obligations.LimitActionCarriedOut := by
  intro s k ts i a armed htable hi hreach hlink harmed
  have hself : NotOwnTarget s i := fun hact hown => absurd hown (hlink hact)
  have hpass : passesOn s i = armed := (passesOn_of_reaches hreach).trans harmed.symm
  have hoff := handsOff_of_reaches hreach
  have hslot := accountHit_slot htable hi k ts a hself
  have hcauses := accountHit_causes htable hi k ts a hself
  have hsweep := accountHit_sweep htable hi k ts a hself
  rw [hpass] at hsweep
  refine ⟨?_, ?_, fun j hj => ?_, accountHit_pins k ts i a s, fun c => ?_, hsweep, ?_⟩
  · rw [hslot, if_pos rfl]
  · rw [hslot, if_pos rfl, hpass, hoff]
    cases haction : (s.slot i).active.action <;> simp [hitStatus, countHit, hreach, haction]
  · rw [hslot, if_neg hj, hpass]; rfl
  · rw [hcauses, hreach, hoff, hpass, Bool.and_true]
    simp only [Bool.or_assoc]
  · simp

end Sys2Proof.Proofs

namespace Sys2Proof.Proofs

open Sys2Proof.Machine

set_option Elab.async false

/-! ## Reports to the sweep engine -/

/-- A RUNNING or SUSPENDED engine has the record of its sweep (R128). -/
theorem liveSweep_of_record {e : SweepEngine} {r : SweepRecord} (hlive : e.state ≠ .idle) (hr : e.record = some r) :
    liveSweep e = some r := (if_neg hlive).trans hr

/-- An IDLE engine has no live sweep (R128). -/
theorem liveSweep_of_idle {e : SweepEngine} (h : e.state = .idle) : liveSweep e = none := if_pos h

theorem updateRecord_of_record {s : State} {r : SweepRecord} (hr : s.sweep.record = some r)
    (f : SweepRecord → SweepRecord) :
    updateRecord f s = { s with sweep := { s.sweep with record := some (f r) } } := by
  rw [updateRecord, hr]; rfl

/-! ### Writes -/

theorem touches_iff {a : Nat} {ws : List WriteWord} {start count : Nat} : touches a ws start count = true ↔
    ∃ j w, ws[j]? = some w ∧ w.lanes ≠ 0 ∧ start ≤ a + j ∧ a + j < start + count := by
  simp only [touches, List.any_eq_true, Prod.exists, List.mem_zipIdx_iff_getElem?, Bool.and_eq_true, bne_iff_ne,
    decide_eq_true_eq, and_assoc]
  exact exists_comm

theorem reportWrite_of_live {s : State} {r : SweepRecord} (hlive : s.sweep.state ≠ .idle) (hr : s.sweep.record = some r)
    (a : Nat) (ws : List WriteWord) :
    reportWrite a ws s = if touches a ws r.start r.count then
      { s with sweep := { s.sweep with record := some { r with disturbed := true } } } else s := by
  simp only [reportWrite, liveSweep_of_record hlive hr, updateRecord_of_record hr]

theorem reportWrite_of_idle {s : State} (h : s.sweep.state = .idle) (a : Nat) (ws : List WriteWord) :
    reportWrite a ws s = s := by
  simp only [reportWrite, liveSweep_of_idle h]

/-! ### Shadow writes -/

theorem pushSource_iff {e : SweepEngine} {r : SweepRecord} (hlive : e.state ≠ .idle) (hr : e.record = some r)
    {o n : Nat} : pushSource e = some (o, n) ↔ n = r.count ∧ ∃ v, r.work = .push o v := by
  rw [pushSource, liveSweep_of_record hlive hr]
  cases hw : r.work <;> simp [hw, and_comm, eq_comm]

/-- A shadow write lands in a range with a lane that it writes (R145). -/
theorem shadowWrite_lands_iff {o n offset : Nat} {l : Lanes} :
    (l != 0 && decide (o ≤ offset) && decide (offset < o + n)) = true ↔ l ≠ 0 ∧ o ≤ offset ∧ offset < o + n := by
  simp only [Bool.and_eq_true, bne_iff_ne, decide_eq_true_eq, and_assoc]

theorem reportShadowWrite_hits {s : State} {r : SweepRecord} {o n offset : Nat} {l : Lanes}
    (hr : s.sweep.record = some r) (hsource : pushSource s.sweep = some (o, n)) (hl : l ≠ 0) (hlow : o ≤ offset)
    (hhigh : offset < o + n) : reportShadowWrite offset l s =
      { s with sweep := { s.sweep with record := some { r with disturbed := true } } } := by
  simp only [reportShadowWrite, hsource, updateRecord_of_record hr]
  exact if_pos (shadowWrite_lands_iff.mpr ⟨hl, hlow, hhigh⟩)

/-- A shadow write that no source range takes is not reported (R145). -/
theorem reportShadowWrite_passes {s : State} {offset : Nat} {l : Lanes}
    (h : ∀ o n, pushSource s.sweep = some (o, n) → l = 0 ∨ offset < o ∨ o + n ≤ offset) :
    reportShadowWrite offset l s = s := by
  unfold reportShadowWrite
  split
  next o n hsource =>
    refine if_neg fun hin => ?_
    obtain ⟨hl, hlow, hhigh⟩ := shadowWrite_lands_iff.mp hin
    have hout := (h o n hsource).resolve_left hl
    omega
  next => rfl

/-! ### Hand-offs -/

theorem fillDestination_iff {e : SweepEngine} {r : SweepRecord} (hlive : e.state ≠ .idle) (hr : e.record = some r)
    {o n : Nat} : fillDestination e = some (o, n) ↔ n = r.count ∧ ∃ v, r.work = .fill o v := by
  rw [fillDestination, liveSweep_of_record hlive hr]
  cases hw : r.work <;> simp [hw, and_comm, eq_comm]

theorem hasStoreRange_iff {m : Mode} : hasStoreRange m = true ↔ m = .patch ∨ m = .shadow := by
  cases m <;> decide

theorem rangeMeets_iff {c : SlotConfig} {o n : Nat} : rangeMeets c o n = true ↔
    (c.mode = .patch ∨ c.mode = .shadow) ∧ c.offset < o + n ∧ o < c.offset + 2 ^ c.k := by
  simp only [rangeMeets, overlaps, Bool.and_eq_true, hasStoreRange_iff, decide_eq_true_eq]
  rfl

theorem reportHandoff_hits {s : State} {r : SweepRecord} {c : SlotConfig} {o n : Nat} {v : Bool}
    (hr : s.sweep.record = some r) (hdest : fillDestination s.sweep = some (o, n)) (hw : r.work = .fill o v)
    (hmeets : rangeMeets c o n = true) : reportHandoff c s =
      { s with sweep := { s.sweep with record := some { r with work := .fill o true } } } := by
  simp only [reportHandoff, hdest, hmeets, if_true, updateRecord_of_record hr, setOverlap, hw]

/-- A hand-off to a slot whose store range misses every destination is not reported (R146). -/
theorem reportHandoff_passes {s : State} {c : SlotConfig}
    (h : ∀ o n, fillDestination s.sweep = some (o, n) → rangeMeets c o n = false) : reportHandoff c s = s := by
  unfold reportHandoff
  split
  next o n hdest => exact if_neg (by simp [h o n hdest])
  next => rfl

/-! ### The flags -/

theorem pushSource_of_idle {e : SweepEngine} (h : e.state = .idle) : pushSource e = none := by
  rw [pushSource, liveSweep_of_idle h]

theorem fillDestination_of_idle {e : SweepEngine} (h : e.state = .idle) : fillDestination e = none := by
  rw [fillDestination, liveSweep_of_idle h]

/-- Settles O54, report by report. -/
theorem sweepFlagsSet : Obligations.SweepFlagsSet := by
  refine ⟨fun s a ws h => reportWrite_of_idle h a ws,
    fun s o l h => reportShadowWrite_passes (by simp [pushSource_of_idle h]),
    fun s c h => reportHandoff_passes (by simp [fillDestination_of_idle h]), fun s r hlive hr =>
    ⟨fun a ws => ⟨fun hin => ?_, fun hout => ?_⟩, fun o l => ⟨fun src v hw hl hlow hhigh => ?_, fun hout => ?_⟩,
      fun c => ⟨fun dst v hw hmode hlow hhigh => ?_, fun hout => ?_⟩⟩⟩
  · rw [reportWrite_of_live hlive hr, if_pos (touches_iff.mpr hin)]
  · rw [reportWrite_of_live hlive hr, if_neg]
    rw [touches_iff]
    rintro ⟨j, w, hw, hl, hlow, hhigh⟩
    have := hout j w hw hl
    omega
  · exact reportShadowWrite_hits hr ((pushSource_iff hlive hr).mpr ⟨rfl, v, hw⟩) hl hlow hhigh
  · refine reportShadowWrite_passes fun src n hsource => ?_
    obtain ⟨rfl, v, hw⟩ := (pushSource_iff hlive hr).mp hsource
    exact hout src v hw
  · exact reportHandoff_hits hr ((fillDestination_iff hlive hr).mpr ⟨rfl, v, hw⟩) hw
      (rangeMeets_iff.mpr ⟨hmode, hlow, hhigh⟩)
  · refine reportHandoff_passes fun dst n hdest => ?_
    obtain ⟨rfl, v, hw⟩ := (fillDestination_iff hlive hr).mp hdest
    rw [← Bool.not_eq_true, rangeMeets_iff]
    rintro ⟨hmode, hlow, hhigh⟩
    rcases hout dst v hw with h | h | h | h
    · simp [h] at hmode
    · simp [h] at hmode
    · omega
    · omega

end Sys2Proof.Proofs

namespace Sys2Proof.Proofs

open Sys2Proof.Machine

set_option Elab.async false

/-! ## The bus clock, count by count (notes/assumptions/2.md) -/

/-! ### The start-up clear -/

theorem clockClear_of_complete {s : State} (h : s.control.clear = .complete) : clockClear s = s := by
  simp only [clockClear, h]

/-- Below its last word the clear writes one word and goes on (R48). -/
theorem clockClear_of_more {s : State} {n : Nat} (h : s.control.clear = .running n) (hn : n < 4095) :
    clockClear s = { s with
      store := storePut s.store n clearedWord, control := { s.control with clear := .running (n + 1) } } := by
  simp only [clockClear, h]
  exact if_pos (Nat.succ_lt_succ hn)

/-- Its last word completes the clear (R169). -/
theorem clockClear_of_last {s : State} {n : Nat} (h : s.control.clear = .running n) (hn : 4095 ≤ n) :
    clockClear s = finishClear s := by
  simp only [clockClear, h]
  exact if_neg (Nat.not_lt.mpr (Nat.succ_le_succ hn))

/-! ### The downstream timeout -/

theorem clockTimeout_of_none {s : State} (h : s.port.outstanding = none) : clockTimeout s = s := by
  simp only [clockTimeout, h]

theorem clockTimeout_of_waiting {s : State} {d : Downstream} (h : s.port.outstanding = some d)
    (hd : d.elapsed + 1 < d.timeout * 16) :
    clockTimeout s = { s with port := { s.port with outstanding := some { d with elapsed := d.elapsed + 1 } } } := by
  simp only [clockTimeout, h]
  exact if_neg (Nat.not_le.mpr hd)

theorem clockTimeout_of_expired {s : State} {d : Downstream} (h : s.port.outstanding = some d)
    (hd : d.timeout * 16 ≤ d.elapsed + 1) : clockTimeout s = timeoutEvent s := by
  simp only [clockTimeout, h]
  exact if_pos hd

/-- With the clear complete and nothing outstanding, the MARK pulse alone counts before the prescale count (R82). -/
theorem clockTimeout_of_quiet {s : State} (hclear : s.control.clear = .complete) (hport : s.port.outstanding = none) :
    clockTimeout (clockMark (clockClear s)) = clockMark s := by
  rw [clockClear_of_complete hclear]
  exact clockTimeout_of_none hport

/-! ### Prescale count and hold timer -/

/-- The advance of the timestamp counter is a tick of the hold timer (R178, R99). -/
theorem clockPrescale_eq (s : State) : clockPrescale s = { s with
    control := clocked s.control
    capture := if s.control.config.prescale ≤ s.control.prescaleCount then
      { s.capture with held := s.capture.held.map fun o => { o with ticksLeft := o.ticksLeft - 1 } } else s.capture } := by
  unfold clockPrescale clocked
  split <;> rfl

theorem clockHold_of_none {s : State} (h : s.capture.held = none) : clockHold s = s := by
  simp only [clockHold, h]

theorem clockHold_of_left {s : State} {o : HeldOffer} (h : s.capture.held = some o) (ho : o.ticksLeft ≠ 0) :
    clockHold s = s := by
  simp only [clockHold, h, if_neg ho]

theorem clockHold_of_expired {s : State} {o : HeldOffer} (h : s.capture.held = some o) (ho : o.ticksLeft = 0) :
    clockHold s = endHoldByDrop s := by
  simp only [clockHold, h, if_pos ho]

theorem clockPrescale_of_hold {s : State} {o : HeldOffer} {left : Nat} (h : s.capture.held = some o)
    (hleft : left = if s.control.config.prescale ≤ s.control.prescaleCount then o.ticksLeft - 1 else o.ticksLeft) :
    clockPrescale s = { s with
      control := clocked s.control, capture := { s.capture with held := some { o with ticksLeft := left } } } := by
  have hcapture : { s.capture with held := some o } = s.capture := by rw [← h]
  rw [clockPrescale_eq, h, hleft]
  split
  · rfl
  · rw [hcapture]

/-! ### The step -/

theorem step_of_reset {s : State} (hq : s.pending = []) (h : s.pins.reset = true) : step s = .next s := by
  simp only [step, hq, busClock, h, if_true]

/-- Out of reset a step on an empty queue counts in the clear, the MARK pulse, the timeout, the prescale
count and the hold, in this order. -/
theorem step_of_clock {s : State} (hq : s.pending = []) (h : s.pins.reset = false) :
    step s = .next (clockHold (clockPrescale (clockTimeout (clockMark (clockClear s))))) := by
  simp only [step, hq, busClock, h, Bool.false_eq_true, if_false]

/-- With no hold left, the prescale count is the last to count (R178). -/
theorem step_of_no_hold {s u : State} (hq : s.pending = []) (hreset : s.pins.reset = false)
    (hu : clockTimeout (clockMark (clockClear s)) = u) (hheld : u.capture.held = none) :
    step s = .next { u with control := clocked u.control } := by
  have hcapture : { u.capture with held := none } = u.capture := by rw [← hheld]
  rw [step_of_clock hq hreset, hu, clockPrescale_eq, hheld, Option.map_none, hcapture, ite_self]
  exact congrArg _ (clockHold_of_none hheld)

/-- Settles O13, clause by clause: the clear and the timeout take their course, and the prescale count and the hold timer
count on from there. -/
theorem idleStepIsOneBusClock : Obligations.IdleStepIsOneBusClock := by
  refine ⟨fun s hq hreset => step_of_reset hq hreset, fun s hq hreset hclear hport hheld => ?_,
    fun s n hq hreset hs hclear hport hheld => ⟨fun hn => ?_, fun hn => ?_⟩,
    fun s d hq hreset hclear hport => ⟨fun hd hheld => ?_, fun hd => ?_⟩,
    fun s h o left hq hreset hclear hport hpath hheld hleft => ?_⟩
  · exact step_of_no_hold hq hreset (clockTimeout_of_quiet hclear hport) hheld
  · have read (a : Nat) := storeRead_storePut n a clearedWord hs (Nat.lt_succ_of_lt hn)
    have hu : clockTimeout (clockMark (clockClear s)) = clockMark { s with
        store := storePut s.store n clearedWord, control := { s.control with clear := .running (n + 1) } } := by
      rw [clockClear_of_more hclear hn]; exact clockTimeout_of_none hport
    refine ⟨storePut s.store n clearedWord, wf_storePut n _ hs, ?_, fun a ha => ?_, step_of_no_hold hq hreset hu hheld⟩
    · rw [read, if_pos rfl]; rfl
    · rw [read, if_neg ha]
  · have hu : clockTimeout (clockMark (clockClear s)) = clockMark (finishClear s) := by
      rw [clockClear_of_last hclear hn]; exact clockTimeout_of_none hport
    exact ⟨_, step_of_no_hold hq hreset hu hheld, fun _ => rfl, rfl⟩
  · have hu : clockTimeout (clockMark (clockClear s)) = { clockMark s with
        port := { s.port with outstanding := some { d with elapsed := d.elapsed + 1 } } } := by
      rw [clockClear_of_complete hclear]; exact clockTimeout_of_waiting hport hd
    exact step_of_no_hold hq hreset hu hheld
  · have hu : clockTimeout (clockMark (clockClear s)) = timeoutEvent (clockMark s) := by
      rw [clockClear_of_complete hclear]; exact clockTimeout_of_expired hport hd
    exact ⟨_, rfl, step_of_no_hold hq hreset hu⟩
  · rw [step_of_clock hq hreset, clockTimeout_of_quiet hclear hport,
      clockPrescale_of_hold (s := clockMark s) hheld hleft]
    refine ⟨fun hne => congrArg _ (clockHold_of_left rfl hne), fun hzero => ⟨_, rfl, ?_⟩⟩
    rw [clockHold_of_expired rfl hzero, hzero]
    rfl

end Sys2Proof.Proofs

namespace Sys2Proof.Proofs

open Sys2Proof.Machine

set_option Elab.async false

/-! ## The capture queue: sequence numbers -/

theorem consecutive_cons {next : Sequence} {r : CaptureRecord} {rest : List CaptureRecord} :
    consecutive next (r :: rest) = true ↔
      r.sequence = next - BitVec.ofNat 16 (rest.length + 1) ∧ consecutive next rest = true := by
  rw [consecutive, Bool.and_eq_true, beq_iff_eq]

/-- A record admitted with the next number continues the queue (R96). -/
theorem consecutive_admit {next : Sequence} {q : List CaptureRecord} (h : consecutive next q = true) (o : CaptureOffer)
    (drops : Nat) : consecutive (next + 1) (q ++ [⟨next, o, drops⟩]) = true := by
  induction q with
  | nil => simp [consecutive]
  | cons r rest ih =>
    obtain ⟨hseq, hrest⟩ := consecutive_cons.mp h
    have hnext : r.sequence = next + 1 - BitVec.ofNat 16 (rest.length + 1 + 1) := by
      rw [hseq]
      bv_omega
    refine consecutive_cons.mpr ⟨?_, ih hrest⟩
    rwa [List.append_eq, List.length_append, List.length_singleton]

/-- The records behind the oldest ones run on to the same number (R106). -/
theorem consecutive_drop {next : Sequence} {q : List CaptureRecord} (h : consecutive next q = true) (n : Nat) :
    consecutive next (q.drop n) = true := by
  induction q generalizing n with
  | nil => simp [consecutive]
  | cons r rest ih =>
    cases n with
    | zero => exact h
    | succ n => exact ih (consecutive_cons.mp h).2 n

/-! ## The capture queue: the operations of the capture unit -/

/-- The property bears on the capture unit alone. -/
theorem captureSound_of_capture {s t : State} (ht : t.capture = s.capture) (h : CaptureSound s) : CaptureSound t := by
  rw [CaptureSound, ht]; exact h

theorem keeps_captureSound {f : State → State} (hf : ∀ s, (f s).capture = s.capture) : Keeps CaptureSound f :=
  fun s h => captureSound_of_capture (hf s) h

/-- An empty queue with nothing dropped, as at reset (R94). -/
theorem captureSound_of_reset {s : State} (hs : s.capture = resetCapture) : CaptureSound s := by
  rw [CaptureSound, hs]; decide

/-- A record is admitted where the queue has space (R95, R96). -/
theorem admitRecord_captureSound {s : State} (h : CaptureSound s) (hspace : s.capture.queue.length < Config.captureDepth)
    (o : CaptureOffer) : CaptureSound (admitRecord o s) := by
  obtain ⟨-, hseq, hdropped, hpending, hbefore⟩ := h
  rw [CaptureSound, admitRecord_capture]
  refine ⟨?_, consecutive_admit hseq o _, hdropped, Nat.zero_le _, fun r hr => ?_⟩
  · rw [List.length_append, List.length_singleton]
    exact hspace
  · rcases List.mem_append.mp hr with hr | hr
    · exact hbefore r hr
    · rw [List.mem_singleton.mp hr]
      exact hpending

/-- Both drop counts saturate (R98). -/
theorem dropRecord_captureSound : Keeps CaptureSound dropRecord := by
  intro s ⟨hlen, hseq, _, _, hbefore⟩
  rw [CaptureSound, dropRecord_capture]
  exact ⟨hlen, hseq, Nat.min_le_right _ _, Nat.min_le_right _ _, hbefore⟩

theorem removeOldest_captureSound (n : Nat) : Keeps CaptureSound (removeOldest n) := by
  intro s ⟨hlen, hseq, hdropped, hpending, hbefore⟩
  rw [CaptureSound, removeOldest_capture]
  refine ⟨?_, consecutive_drop hseq n, hdropped, hpending, fun r hr => hbefore r (List.mem_of_mem_drop hr)⟩
  exact List.length_drop.trans_le ((Nat.sub_le _ n).trans hlen)

/-- The held offer is no record of the queue (R99 to R101). -/
theorem clearHeld_captureSound : Keeps CaptureSound clearHeld := fun _ h => h

theorem beginHold_captureSound (r : BusRequest) (resp : BusResponse) (o : CaptureOffer) :
    Keeps CaptureSound (beginHold r resp o) := fun _ h => h

theorem tick_captureSound : Keeps CaptureSound tick := fun _ h => h

theorem giveResponse_captureSound (r : BusRequest) (resp : BusResponse) : Keeps CaptureSound (giveResponse r resp) :=
  keeps_captureSound (giveResponse_capture r resp)

theorem complete_captureSound (st : Status) (p : List Byte) : Keeps CaptureSound (complete st p) :=
  keeps_captureSound (complete_capture st p)

theorem endHoldByDrop_captureSound : Keeps CaptureSound endHoldByDrop := by
  intro s h
  unfold endHoldByDrop
  split
  · exact giveResponse_captureSound _ _ (dropRecord_captureSound (clearHeld_captureSound h))
  · exact h

/-- A hold ends by space only where there is space (R100). -/
theorem endHoldBySpace_captureSound {s : State} (h : CaptureSound s)
    (hspace : s.capture.queue.length < Config.captureDepth) : CaptureSound (endHoldBySpace s) := by
  unfold endHoldBySpace
  split
  · exact giveResponse_captureSound _ _ (admitRecord_captureSound (s := clearHeld s) h hspace _)
  · exact h

theorem takeOffer_captureSound (r : BusRequest) (resp : BusResponse) (o : CaptureOffer) :
    Keeps CaptureSound (takeOffer r resp o) := by
  intro s h
  unfold takeOffer
  split
  next hspace => exact giveResponse_captureSound r resp (admitRecord_captureSound h hspace o)
  next =>
    split
    · exact giveResponse_captureSound r resp (dropRecord_captureSound h)
    · split
      · exact endHoldByDrop_captureSound (beginHold_captureSound r resp o h)
      · exact beginHold_captureSound r resp o h

theorem settle_captureSound (r : BusRequest) (d : Decided) (o : RequestOutcome) (resp : BusResponse) :
    Keeps CaptureSound (settle r d o resp) := by
  intro s h
  have units : CaptureSound (settleUnits r d o s) := captureSound_of_capture (settleUnits_capture r d o s) h
  unfold settle
  split
  · exact giveResponse_captureSound r resp units
  · exact takeOffer_captureSound r resp _ units

/-! ## The capture queue: host requests and sweeps -/

theorem raise_captureSound (c : Cause) : Keeps CaptureSound (raise c) := keeps_captureSound (raise_capture c)

theorem requestPort_captureSound (f : Flight) : Keeps CaptureSound (requestPort f) :=
  keeps_captureSound (requestPort_capture f)

theorem freePort_captureSound (b : Bool) : Keeps CaptureSound (freePort b) := keeps_captureSound (freePort_capture b)

theorem presentRequest_captureSound (r : BusRequest) : Keeps CaptureSound (presentRequest r) := by
  intro s h
  unfold presentRequest
  split
  · exact routeRequest_keeps requestPort_captureSound settle_captureSound giveResponse_captureSound raise_captureSound _
      (keeps_captureSound sampleFbyp_capture h)
  · exact h

theorem hostAnswered_captureSound (f : Flight) (resp : BusResponse) : Keeps CaptureSound (hostAnswered f resp) :=
  hostAnswered_keeps settle_captureSound giveResponse_captureSound raise_captureSound freePort_captureSound f resp

theorem hostTimedOut_captureSound (f : Flight) : Keeps CaptureSound (hostTimedOut f) :=
  hostTimedOut_keeps settle_captureSound giveResponse_captureSound raise_captureSound freePort_captureSound f

/-- A soft reset empties the queue (R174). -/
theorem softResetChange_captureSound (s : State) : CaptureSound (softResetChange s) :=
  captureSound_of_reset (complete_capture _ _ _)

theorem carrySoftReset_captureSound : Keeps CaptureSound carrySoftReset := by
  intro s h
  unfold carrySoftReset
  split
  · exact softResetChange_captureSound s
  · split
    · exact softResetChange_captureSound _
    · exact h

theorem afterOwnEnd_captureSound : Keeps CaptureSound afterOwnEnd := by
  intro s h
  unfold afterOwnEnd
  split
  · exact complete_captureSound _ _ h
  · exact complete_captureSound _ _ h
  · exact softResetChange_captureSound s
  · exact h

theorem blockCompleted_captureSound : Keeps CaptureSound blockCompleted := by
  intro s h
  unfold blockCompleted
  split
  · exact h
  · split
    · exact afterOwnEnd_captureSound (keeps_captureSound (endSweep_capture _) h)
    · split
      · exact complete_captureSound _ _ (captureSound_of_capture (s := s) rfl h)
      · exact complete_captureSound _ _ (keeps_captureSound (endSweep_capture _) h)
      · exact softResetChange_captureSound s
      · exact keeps_captureSound takeBlock_capture h

theorem blockFailed_captureSound (a : Bool) (c : FailCause) (b : Block) : Keeps CaptureSound (blockFailed a c b) :=
  fun _ h => afterOwnEnd_captureSound (keeps_captureSound (failSweep_capture _ _) (freePort_captureSound _ h))

/-- The answer to a block reaches the queue by a soft reset that waits for the block alone. -/
theorem blockAnswered_captureSound (r : SweepRecord) (b : Block) (data : List Word) :
    Keeps CaptureSound (blockAnswered r b data) := by
  intro s h
  have completed {t : State} (ht : t.capture = s.capture) : CaptureSound (blockCompleted (freePort false t)) :=
    blockCompleted_captureSound (freePort_captureSound _ (captureSound_of_capture ht h))
  unfold blockAnswered
  split
  · exact completed (updateRecord_capture _ _)
  · exact completed (updateRecord_capture _ _)
  · exact completed (updateRecord_capture _ _)
  · exact completed (updateRecord_capture _ _)
  · exact captureSound_of_capture (by simp) h

theorem sweepAnswered_captureSound (r : SweepRecord) (b : Block) (resp : BusResponse) :
    Keeps CaptureSound (sweepAnswered r b resp) := by
  intro s h
  cases resp with
  | error => exact blockFailed_captureSound _ _ _ (raise_captureSound _ h)
  | okay data => exact blockAnswered_captureSound r b data h

/-! ## The capture queue: link commands -/

theorem withLink_captureSound (l : LinkInterface) : Keeps CaptureSound (·.withLink l) := fun _ h => h

/-- An acknowledgement that finds its record makes the space by which a hold ends (R100, R106). -/
theorem acknowledgeRecords_captureSound {s : State} {seq : Sequence} {n : Nat} (h : CaptureSound s)
    (hn : ackCount seq s.capture.queue = some n) : CaptureSound (acknowledgeRecords n s) := by
  have hbounds := ackCount_bounds hn
  have hlen : s.capture.queue.length ≤ Config.captureDepth := h.1
  refine endHoldBySpace_captureSound (complete_captureSound _ _ (removeOldest_captureSound n h)) ?_
  rw [complete_capture, removeOldest_capture, List.length_drop]
  omega

/-- A flush leaves the queue empty (R108). -/
theorem flushRecords_captureSound : Keeps CaptureSound flushRecords := by
  intro s h
  unfold flushRecords
  split
  · exact complete_captureSound _ _ (removeOldest_captureSound 0 h)
  · refine endHoldBySpace_captureSound (complete_captureSound _ _ (removeOldest_captureSound _ h)) ?_
    rw [complete_capture, removeOldest_capture, level, List.drop_length]
    exact Nat.zero_lt_succ 63

theorem runCaptureAck_captureSound (seq : Nat) : Keeps CaptureSound (runCaptureAck seq) := by
  refine unlessStarting_keeps withLink_captureSound fun s h => ?_
  split
  next hn => exact acknowledgeRecords_captureSound h hn
  next => exact complete_captureSound _ _ h

/-- SOFT_RESET taken drops a held offer, and at an IDLE path empties the queue (R102, R173). -/
theorem runSoftReset_captureSound : Keeps CaptureSound runSoftReset := by
  refine unlessStarting_keeps withLink_captureSound fun s h => ?_
  have ended : CaptureSound (endHoldByDrop (await (.boundary .softReset) s)) := endHoldByDrop_captureSound h
  unfold takeSoftReset carryAtIdle
  split
  · exact carrySoftReset_captureSound ended
  · exact ended

/-- Of the boundary commands SOFT_RESET reaches the capture unit (R174). -/
theorem carry_captureSound (b : BoundaryCommand) : Keeps CaptureSound (carry b) := by
  cases b with
  | softReset => exact carrySoftReset_captureSound
  | _ => exact keeps_captureSound fun s => by simp [carry]

theorem boundary_captureSound (b : BoundaryCommand) : Keeps CaptureSound (atBoundary b) :=
  atBoundary_keeps withLink_captureSound (carry_captureSound b)

/-- A block's meaning that leaves the capture unit, behind the STARTING check. -/
theorem unlessStarting_captureSound {f : State → State} (hf : ∀ s, (f s).capture = s.capture) :
    Keeps CaptureSound (unlessStarting f) := unlessStarting_keeps withLink_captureSound (keeps_captureSound hf)

/-- The same behind the checks of a start command. -/
theorem checkStart_captureSound (inRange : Bool) {f : State → State} (hf : ∀ s, (f s).capture = s.capture) :
    Keeps CaptureSound (checkStart inRange f) :=
  unlessStarting_captureSound fun s => by (repeat' split) <;> simp [hf]

/-- The same behind the checks of a command that names a slot. -/
theorem onSlot_captureSound (slot : Nat) {f : State → State} (hf : ∀ s, (f s).capture = s.capture) :
    Keeps CaptureSound (onSlot slot f) := onSlot_keeps withLink_captureSound slot (keeps_captureSound hf)

theorem runCommand_captureSound (c : Command) : Keeps CaptureSound (runCommand c) := by
  cases c with
  | captureAck seq => exact runCaptureAck_captureSound seq
  | captureFlush => exact unlessStarting_keeps withLink_captureSound flushRecords_captureSound
  | softReset => exact runSoftReset_captureSound
  | storeWrite | disengage =>
    refine unlessStarting_keeps withLink_captureSound fun s h => ?_
    split
    · exact boundary_captureSound _ h
    · exact complete_captureSound _ _ h
  | slotState slot =>
    refine onSlot_keeps withLink_captureSound slot fun s h => ?_
    split
    · exact boundary_captureSound _ h
    · exact complete_captureSound _ _ h
  | slotAck slot => exact onSlot_keeps withLink_captureSound slot (boundary_captureSound _)
  | tableCommit | engage => exact unlessStarting_keeps withLink_captureSound (boundary_captureSound _)
  | nop | partStatus | alertStatus => exact keeps_captureSound fun s => complete_capture _ _ s
  | ping echo => exact keeps_captureSound fun s => by simp only [runCommand, runPing]; split <;> simp
  | slotStage slot f => exact onSlot_captureSound slot fun s => by split <;> simp
  | slotUnstage slot | slotRead slot => exact onSlot_captureSound slot fun s => by simp
  | sweepCheck | sweepPush => exact checkStart_captureSound _ fun s => startSweep_capture _ s
  | sweepFill => exact checkStart_captureSound _ fun s => takeSweepFill_capture _ _ _ s
  | setConfig | alertAck | captureRead | readRaw | readView | writeRaw | writeVerify | storeRead =>
    exact unlessStarting_captureSound fun s => by split <;> simp
  | tableDiscard | captureInfo | readConfig | lastAccess | sweepSuspend | sweepResume | sweepAbort | sweepStatus =>
    exact unlessStarting_captureSound fun s => by simp

theorem considerNext_captureSound : Keeps CaptureSound considerNext :=
  considerNext_keeps withLink_captureSound runCommand_captureSound

/-! ## The capture queue: events and the bus clock -/

theorem timeoutEvent_captureSound : Keeps CaptureSound timeoutEvent := by
  intro s h
  refine considerNext_captureSound ?_
  unfold expireTimeout
  split
  · split
    · exact hostTimedOut_captureSound _ h
    · exact h
  · split
    · exact keeps_captureSound (linkTimedOut_capture _) h
    · exact h
  · split
    · exact blockFailed_captureSound _ _ _ (raise_captureSound _ h)
    · exact h
  · exact h

theorem clockTimeout_captureSound : Keeps CaptureSound clockTimeout := by
  intro s h
  unfold clockTimeout
  split
  · exact h
  · split
    · exact timeoutEvent_captureSound h
    · exact h

theorem clockPrescale_captureSound : Keeps CaptureSound clockPrescale := by
  intro s h
  unfold clockPrescale
  split
  · exact tick_captureSound h
  · exact h

theorem clockHold_captureSound : Keeps CaptureSound clockHold := by
  intro s h
  unfold clockHold
  split
  · split
    · exact endHoldByDrop_captureSound h
    · exact h
  · exact h

theorem busClock_captureSound : Keeps CaptureSound busClock := by
  intro s h
  unfold busClock
  split
  · exact h
  · have cleared : CaptureSound (clockMark (clockClear s)) := keeps_captureSound clockClear_capture h
    exact clockHold_captureSound (clockPrescale_captureSound (clockTimeout_captureSound cleared))

theorem execStoreUpset_captureSound {s : State} (h : CaptureSound s) (offset : Nat) (data : Word) :
    NextIn CaptureSound (execStoreUpset offset data s) := by
  unfold execStoreUpset
  split
  · exact nextIn_next h
  · exact nextIn_fault _ _

theorem execDownstreamResponse_captureSound {s : State} (h : CaptureSound s) (resp : BusResponse) :
    NextIn CaptureSound (execDownstreamResponse resp s) := by
  unfold execDownstreamResponse
  split
  · exact nextIn_checked (hostAnswered_captureSound _ _ h) _ _
  · exact nextIn_next h

theorem execLinkAccessResponse_captureSound {s : State} (h : CaptureSound s) (resp : BusResponse) :
    NextIn CaptureSound (execLinkAccessResponse resp s) := by
  unfold execLinkAccessResponse
  split
  · exact nextIn_checked (considerNext_captureSound (keeps_captureSound (linkAccessAnswered_capture _ _) h)) _ _
  · exact nextIn_next h

theorem execSweepBlockResponse_captureSound {s : State} (h : CaptureSound s) (resp : BusResponse) :
    NextIn CaptureSound (execSweepBlockResponse resp s) := by
  unfold execSweepBlockResponse
  split
  · exact nextIn_checked (considerNext_captureSound (sweepAnswered_captureSound _ _ _ h)) _ _
  · exact nextIn_next h

theorem execTimestampTick_captureSound {s : State} (h : CaptureSound s) :
    NextIn CaptureSound (execTimestampTick s) := by
  refine nextIn_next ?_
  split
  · exact h
  · exact tick_captureSound h

/-- The rows that are no link command's. -/
theorem execEvent_captureSound (i : Instr) (s : State) (hi : i.command = none) (h : CaptureSound s) :
    NextIn CaptureSound (exec i s) := by
  cases i with
  | powerOnReset => exact nextIn_next (captureSound_of_reset rfl)
  | holdExpiry => exact nextIn_next (endHoldByDrop_captureSound h)
  | timestampTick => exact execTimestampTick_captureSound h
  | hostRequestAccept r => exact nextIn_checked (presentRequest_captureSound r h) _ _
  | downstreamResponse resp => exact execDownstreamResponse_captureSound h resp
  | linkAccessResponse resp => exact execLinkAccessResponse_captureSound h resp
  | sweepBlockResponse resp => exact execSweepBlockResponse_captureSound h resp
  | downstreamTimeoutExpiry => exact nextIn_next (timeoutEvent_captureSound h)
  | storeUpset offset data => exact execStoreUpset_captureSound h offset data
  | resetRelease | fbypRelease | markPulseEnd => exact nextIn_next h
  | startupClearComplete => exact nextIn_next (keeps_captureSound completeClear_capture h)
  | fbypAssert => exact nextIn_next (keeps_captureSound assertFbyp_capture h)
  | lselAssert => exact nextIn_next (keeps_captureSound assertLsel_capture h)
  | exchangeEnd ldi => exact nextIn_next (considerNext_captureSound (keeps_captureSound (endExchange_capture ldi) h))
  | commandStart => exact nextIn_next (considerNext_captureSound h)
  | unknownCommand seq code args =>
    have ran := runQueued_keeps withLink_captureSound runCommand_captureSound ⟨seq, code, args⟩
    exact nextIn_next (submit_keeps withLink_captureSound raise_captureSound _ ran h)
  | boundaryCommandExecution =>
    exact nextIn_next (considerNext_captureSound (executeBoundary_keeps carry_captureSound h))
  | _ => cases hi

/-- Settles O6. A record enters the queue with the next number and only where there is space, records leave it from its
head, the drop counts saturate, and a reset empties it; no other change touches the queue or the counts. -/
theorem captureQueueStaysConsecutive : Obligations.CaptureQueueStaysConsecutive := by
  intro s t hs hstep
  have hexec : ∀ (i : Instr) (s : State), CaptureSound s → NextIn CaptureSound (exec i s) := fun i _ =>
    exec_keeps withLink_captureSound raise_captureSound runCommand_captureSound execEvent_captureSound i
  exact step_keeps (fun _ _ h => h) busClock_captureSound hexec hs hstep

end Sys2Proof.Proofs

namespace Sys2Proof.Proofs

open Sys2Proof.Machine

set_option Elab.async false

/-! ## The capture offer -/

/-- The lowest address of a list that is not empty is one of it, and no other is lower (R93). -/
theorem lowest_spec {addrs : List Nat} (h : addrs ≠ []) : lowest addrs ∈ addrs ∧ ∀ a ∈ addrs, lowest addrs ≤ a := by
  cases addrs with
  | nil => exact absurd rfl h
  | cons a rest => exact List.min?_eq_some_iff.mp List.min?_cons'

theorem captureOffer_patched {r : BusRequest} {o : RequestOutcome} {d : Decided} {resp : BusResponse} {ts : Word}
    {listed : List (Nat × Nat)} : (captureOffer r o d resp ts listed).patched = true ↔ requestKind r = .read ∧
      ∃ w ∈ d.words, decidedBy d.snapshot .patch w = true ∧ ∃ m, w.fetched = some m ∧ m.bad = false := by
  simp [captureOffer, Option.any_eq_true]

theorem captureOffer_shadowed {r : BusRequest} {o : RequestOutcome} {d : Decided} {resp : BusResponse} {ts : Word}
    {listed : List (Nat × Nat)} : (captureOffer r o d resp ts listed).shadowed = true ↔
      ∃ w ∈ d.words, decidedBy d.snapshot .shadow w = true := List.any_eq_true

/-- The key address is the lowest of the first matched addresses (R93). -/
theorem captureOffer_keyAddr {listed : List (Nat × Nat)} (h : listed ≠ []) (r : BusRequest) (o : RequestOutcome)
    (d : Decided) (resp : BusResponse) (ts : Word) :
    (captureOffer r o d resp ts listed).keyAddr ∈ listed.map (·.2) ∧
      ∀ p ∈ listed, (captureOffer r o d resp ts listed).keyAddr ≤ p.2 := by
  obtain ⟨hmem, hle⟩ := lowest_spec (mt List.map_eq_nil_iff.mp h)
  exact ⟨hmem, fun p hp => hle _ (List.mem_map_of_mem hp)⟩

/-- Settles O29: the three courses of an offer, then what the offer says of its request. -/
theorem captureOfferTaken : Obligations.CaptureOfferTaken := by
  refine ⟨fun s r resp o => ⟨fun hspace => ?_, fun hfull hdrop => ?_, fun hfull hhold hwaits => ?_⟩,
    fun r o d resp ts listed x hx hlisted => ?_⟩
  · rw [takeOffer_admits hspace, giveResponse_capture, giveResponse_forward, admitRecord_capture]
    exact ⟨rfl, rfl, rfl⟩
  · rw [takeOffer_drops hfull hdrop, giveResponse_capture, giveResponse_forward, dropRecord_capture]
    exact ⟨rfl, causesGrow_giveResponse r resp _ _ (hasCause_dropRecord s), rfl, rfl⟩
  · rw [takeOffer_holds hfull hhold hwaits]
    exact ⟨rfl, rfl, rfl⟩
  · subst hx
    obtain ⟨hkey, hlowest⟩ := captureOffer_keyAddr hlisted r o d resp ts
    refine ⟨rfl, rfl, rfl, rfl, rfl, rfl, hkey, hlowest, captureOffer_patched, captureOffer_shadowed, ?_, ?_⟩
    · rintro a n rfl
      exact ⟨rfl, fun herror => by rw [herror]; rfl, fun data hokay => by rw [hokay]; rfl⟩
    · rintro a ws rfl
      exact ⟨rfl, rfl⟩

/-! ## Records removed -/

/-- What an acknowledgement removes: the first record with the number, with all before it (R106). -/
theorem ackCount_found {seq : Sequence} {older newer : List CaptureRecord} {x : CaptureRecord} (hx : x.sequence = seq)
    (holder : ∀ y ∈ older, y.sequence ≠ seq) : ackCount seq (older ++ x :: newer) = some (older.length + 1) := by
  have hnone : older.findIdx? (fun r => r.sequence == seq) = none := by simpa using holder
  simp [ackCount, List.findIdx?_append, hnone, List.findIdx?_cons, hx]

theorem ackCount_missing {seq : Sequence} {queue : List CaptureRecord} (h : ∀ x ∈ queue, x.sequence ≠ seq) :
    ackCount seq queue = none := by
  simpa [ackCount] using h

theorem drop_found {queue older newer : List CaptureRecord} {x : CaptureRecord} (h : queue = older ++ x :: newer) :
    queue.drop (older.length + 1) = newer := by
  rw [h, List.drop_length_add_append, List.drop_succ_cons, List.drop_zero]

/-- The start of a command and the removal of records come in either order. -/
theorem removeOldest_startedState (n : Nat) (q : QueuedCommand) (s : State) :
    removeOldest n (startedState q s) = startedState q (removeOldest n s) := by
  unfold removeOldest checkLevel
  split
  next h => rw [if_pos (by exact h)]; rfl
  next h => rw [if_neg (by exact h)]; rfl

/-- Records removed and the command answered, at a ready link (R106, R108). -/
theorem complete_removeOldest {s : State} (hr : LinkReady s) (n : Nat) (q : QueuedCommand) (st : Status)
    (p : List Byte) :
    complete st p (removeOldest n (startedState q s)) = answered q.seq st p (removeOldest n s) := by
  have hready : LinkReady (removeOldest n s) := by simpa [LinkReady] using hr
  rw [removeOldest_startedState, complete_startedState hready]

/-- CAPTURE_ACK of a number that a record has (R106). -/
theorem exec_captureAck_found {s : State} {n : Nat} {older newer : List CaptureRecord} {x : CaptureRecord}
    (hr : Ready s) (hqueue : s.capture.queue = older ++ x :: newer) (hx : x.sequence = BitVec.ofNat 16 n)
    (holder : ∀ y ∈ older, y.sequence ≠ BitVec.ofNat 16 n) (q : Byte) :
    exec (.captureAck q n) s = .next (endHoldBySpace (answered q .ok
      (natBytes 1 (older.length + 1) ++ natBytes 1 newer.length) (removeOldest (older.length + 1) s))) := by
  have hrun : runCaptureAck n (startedState (queuedOf q (.captureAck n)) s) =
      acknowledgeRecords (older.length + 1) (startedState (queuedOf q (.captureAck n)) s) := by
    rw [runCaptureAck, unlessStarting_past (started_past hr _), startedState_capture, hqueue, ackCount_found hx holder]
  have hleft : level (removeOldest (older.length + 1) (startedState (queuedOf q (.captureAck n)) s)) =
      newer.length := by
    rw [level, removeOldest_capture, startedState_capture, drop_found hqueue]
  rw [exec_of_ready (.captureAck n) hr, runCommand, hrun, acknowledgeRecords, hleft, complete_removeOldest hr.1]
  rfl

/-- CAPTURE_ACK of a number that no record has (R106). -/
theorem exec_captureAck_missing {s : State} {n : Nat} (hr : Ready s)
    (hk : ackCount (BitVec.ofNat 16 n) s.capture.queue = none) (q : Byte) :
    exec (.captureAck q n) s = .next (answered q .notFound (natBytes 1 s.capture.queue.length) s) := by
  refine exec_of_answer (.captureAck n) hr ?_
  rw [runCommand, runCaptureAck, unlessStarting_past (started_past hr _), startedState_capture, hk]
  rfl

/-- CAPTURE_FLUSH of an empty queue, which makes no space (R100, R108). -/
theorem exec_captureFlush_empty {s : State} (hr : Ready s) (h : s.capture.queue = []) (q : Byte) :
    exec (.captureFlush q) s = .next (answered q .ok (natBytes 1 0) (removeOldest 0 s)) := by
  have hempty : level (startedState (queuedOf q .captureFlush) s) = 0 := by simp [level, h]
  rw [exec_of_ready .captureFlush hr, runCommand, runCaptureFlush, unlessStarting_past (started_past hr _), flushRecords,
    if_pos hempty, complete_removeOldest hr.1]
  rfl

/-- CAPTURE_FLUSH of a queue with records (R108). -/
theorem exec_captureFlush_records {s : State} (hr : Ready s) (h : s.capture.queue ≠ []) (q : Byte) :
    exec (.captureFlush q) s = .next (endHoldBySpace
      (answered q .ok (natBytes 1 s.capture.queue.length) (removeOldest s.capture.queue.length s))) := by
  have hrecords : level (startedState (queuedOf q .captureFlush) s) ≠ 0 := by simpa [level] using h
  rw [exec_of_ready .captureFlush hr, runCommand, runCaptureFlush, unlessStarting_past (started_past hr _), flushRecords,
    if_neg hrecords, complete_removeOldest hr.1]
  rfl

/-! ## A hold ended by space -/

theorem endHoldBySpace_of_not_held {s : State} (h : isHeld s.forward.path = false) : endHoldBySpace s = s := by
  unfold endHoldBySpace
  split
  next hpath _ => rw [hpath] at h; cases h
  next => rfl

/-- The held offer is admitted behind the records left, with the next number (R96, R100). -/
theorem endHoldBySpace_capture {s : State} {h : HeldRequest} {o : HeldOffer} (hpath : s.forward.path = .held h)
    (hheld : s.capture.held = some o) : (endHoldBySpace s).capture = { s.capture with
      queue := s.capture.queue ++ [⟨s.capture.nextSeq, o.offer, s.capture.pendingDrops⟩]
      nextSeq := s.capture.nextSeq + 1
      pendingDrops := 0
      held := none } := by
  simp only [endHoldBySpace, hpath, hheld]
  rw [giveResponse_capture, admitRecord_capture]
  rfl

/-- The held response is given (R43, R100). -/
theorem endHoldBySpace_forward {s : State} {h : HeldRequest} {o : HeldOffer} (hpath : s.forward.path = .held h)
    (hheld : s.capture.held = some o) : (endHoldBySpace s).forward = { s.forward with
      path := .idle
      lastAccess := some (lastAccessOf h.request h.response s.control.timestamp)
      given := some h.response } := by
  simp only [endHoldBySpace, hpath, hheld]
  rw [giveResponse_forward, admitRecord_timestamp, admitRecord_forward, clearHeld_forward, clearHeld_control]

theorem checkLevel_timestamp (s : State) : (checkLevel s).control.timestamp = s.control.timestamp := by
  rw [checkLevel_control]; split <;> rfl

/-! ### CAPTURE_LOSS -/

theorem captureLoss_checkLevel (s : State) :
    hasCause (checkLevel s).control.causes .captureLoss = hasCause s.control.causes .captureLoss := by
  unfold checkLevel
  split
  · exact (hasCause_raise _ _ s).trans (Bool.or_false _)
  · rfl

theorem captureLoss_sampleFbyp (s : State) :
    hasCause (sampleFbyp s).control.causes .captureLoss = hasCause s.control.causes .captureLoss := by
  unfold sampleFbyp
  split
  · exact (hasCause_raise _ _ (s.withControl _)).trans (Bool.or_false _)
  · rfl

/-- A hold that ends by space loses no record (R100). -/
theorem captureLoss_endHoldBySpace (s : State) :
    hasCause (endHoldBySpace s).control.causes .captureLoss = hasCause s.control.causes .captureLoss := by
  unfold endHoldBySpace
  split
  · rw [giveResponse_control, captureLoss_sampleFbyp]
    exact captureLoss_checkLevel _
  · rfl

/-! ### The removal -/

/-- What a removal of the `n` oldest records leaves of a machine that it brings out of a hold, where the link interface
is `l` afterwards (R96, R100). -/
def HoldEndedBySpace (n : Nat) (h : HeldRequest) (o : HeldOffer) (l : LinkInterface) (s t : State) : Prop :=
  t.capture = { s.capture with
    queue := s.capture.queue.drop n ++ [⟨s.capture.nextSeq, o.offer, s.capture.pendingDrops⟩]
    nextSeq := s.capture.nextSeq + 1
    pendingDrops := 0
    held := none } ∧
  t.forward = { s.forward with
    path := .idle
    lastAccess := some (lastAccessOf h.request h.response s.control.timestamp)
    given := some h.response } ∧
  t.link = l ∧ t.table = s.table ∧ t.store = s.store ∧ t.port = s.port ∧ t.sweep = s.sweep

theorem removal_endsHold {s : State} {h : HeldRequest} {o : HeldOffer} (hpath : s.forward.path = .held h)
    (hheld : s.capture.held = some o) (n : Nat) (q : Byte) (p : List Byte) :
    HoldEndedBySpace n h o (answered q .ok p s).link s (endHoldBySpace (answered q .ok p (removeOldest n s))) := by
  have hcapture : (answered q .ok p (removeOldest n s)).capture =
      { s.capture with queue := s.capture.queue.drop n } := removeOldest_capture n s
  have hforward : (answered q .ok p (removeOldest n s)).forward = s.forward := removeOldest_forward n s
  have htime : (answered q .ok p (removeOldest n s)).control.timestamp = s.control.timestamp :=
    checkLevel_timestamp (s.withCapture _)
  have hheld' : (answered q .ok p (removeOldest n s)).capture.held = some o := by rw [hcapture]; exact hheld
  refine ⟨?_, ?_, by simp [answered], by simp [answered], by simp [answered], by simp [answered], by simp [answered]⟩
  · rw [endHoldBySpace_capture (hforward ▸ hpath) hheld', hcapture]
  · rw [endHoldBySpace_forward (hforward ▸ hpath) hheld', hforward, htime]

/-- A removal at a path that is not HELD ends no hold, and `left` names the records that it leaves. -/
theorem removal_endsNoHold {s : State} (hpath : isHeld s.forward.path = false) {n : Nat} {left : List CaptureRecord}
    (hleft : s.capture.queue.drop n = left) (q : Byte) (p : List Byte) :
    endHoldBySpace (answered q .ok p (removeOldest n s)) =
      answered q .ok p (checkLevel { s with capture := { s.capture with queue := left } }) := by
  have hpath' : isHeld (answered q .ok p (removeOldest n s)).forward.path = false := by
    rwa [answered, State.withLink_forward, removeOldest_forward]
  rw [endHoldBySpace_of_not_held hpath', ← hleft]
  rfl

/-- Settles O30, by the records that go and by whether a hold ends. -/
theorem captureRecordsRemoved : Obligations.CaptureRecordsRemoved := by
  refine ⟨fun s q n hr hnone => exec_captureAck_missing hr (ackCount_missing hnone) q,
    fun s q n older newer x hr hqueue hx holder hpath => ?_,
    fun s q n older newer x h o hr hqueue hx holder hpath hheld => ?_, fun s q hr hpath => ?_,
    fun s q h o hr hqueue hpath hheld => ?_⟩
  · rw [exec_captureAck_found hr hqueue hx holder, removal_endsNoHold hpath (drop_found hqueue)]
  · have hended := removal_endsHold hpath hheld (older.length + 1) q
      (natBytes 1 (older.length + 1) ++ natBytes 1 newer.length)
    rw [HoldEndedBySpace, drop_found hqueue] at hended
    exact ⟨_, exec_captureAck_found hr hqueue hx holder q, hended⟩
  · by_cases hempty : s.capture.queue = []
    · rw [exec_captureFlush_empty hr hempty]
      simp only [removeOldest, hempty]
      rfl
    · rw [exec_captureFlush_records hr hempty, removal_endsNoHold hpath List.drop_length]
  · obtain ⟨hcapture, hforward, hlink, hrest⟩ :=
      removal_endsHold hpath hheld s.capture.queue.length q (natBytes 1 s.capture.queue.length)
    rw [List.drop_length] at hcapture
    refine ⟨_, exec_captureFlush_records hr hqueue q, hcapture, hforward, hlink, ?_, hrest⟩
    rw [captureLoss_endHoldBySpace]
    exact captureLoss_checkLevel _

end Sys2Proof.Proofs

namespace Sys2Proof.Proofs

open Sys2Proof.Machine

set_option Elab.async false

/-! ## The sweep engine but for its two flags

DISTURBED and OVERLAP tell of other blocks' accesses and bear on nothing that the engine does (R145, R146). -/

/-- The work of a sweep with OVERLAP clear. -/
def plainWork : SweepWork → SweepWork
  | .fill offset _ => .fill offset false
  | w => w

/-- The record with both flags clear. -/
def plainRecord (r : SweepRecord) : SweepRecord := { r with disturbed := false, work := plainWork r.work }

/-- The engine with the flags of its record clear. -/
def plainSweep (e : SweepEngine) : SweepEngine := { e with record := e.record.map plainRecord }

theorem plainRecord_disturbed (r : SweepRecord) : plainRecord { r with disturbed := true } = plainRecord r := rfl

theorem plainRecord_setOverlap (r : SweepRecord) : plainRecord (setOverlap r) = plainRecord r := by
  unfold setOverlap
  split
  next h => simp [plainRecord, plainWork, h]
  next => rfl

theorem plainSweep_updateRecord {f : SweepRecord → SweepRecord} (hf : ∀ r, plainRecord (f r) = plainRecord r)
    (s : State) : plainSweep (updateRecord f s).sweep = plainSweep s.sweep := by
  have hrecord : plainRecord ∘ f = plainRecord := funext hf
  simp [plainSweep, updateRecord_sweep, hrecord]

theorem plainSweep_reportWrite (a : Nat) (ws : List WriteWord) (s : State) :
    plainSweep (reportWrite a ws s).sweep = plainSweep s.sweep := by
  unfold reportWrite
  split
  · split
    · exact plainSweep_updateRecord plainRecord_disturbed s
    · rfl
  · rfl

theorem plainSweep_issueReported (r : BusRequest) (s : State) :
    plainSweep (issueReported r s).sweep = plainSweep s.sweep := by
  cases r with
  | read a n => rfl
  | write a ws => exact plainSweep_reportWrite a ws _

theorem workCode_plain (w : SweepWork) : workCode (plainWork w) = workCode w := by cases w <;> rfl

theorem workVerify_plain (w : SweepWork) : workVerify (plainWork w) = workVerify w := by cases w <;> rfl

theorem sweepRequest_plain (r : SweepRecord) (b : Block) : sweepRequest (plainRecord r) b = sweepRequest r b := by
  have hwork : blockRequest (plainRecord r).work b = blockRequest r.work b := by
    unfold plainRecord
    cases r.work <;> rfl
  rw [sweepRequest, sweepRequest, hwork]

theorem blockOutstanding_plain (e : SweepEngine) : blockOutstanding (plainSweep e) = blockOutstanding e := by
  obtain ⟨st, record, block⟩ := e
  cases record with
  | none => rfl
  | some r =>
    cases block with
    | none => rfl
    | some b => simp [blockOutstanding, sweepOutstanding, plainSweep, sweepRequest_plain, Function.comp_def]

theorem blockOutstanding_congr {e e' : SweepEngine} (h : plainSweep e' = plainSweep e) :
    blockOutstanding e' = blockOutstanding e := by
  rw [← blockOutstanding_plain e', h, blockOutstanding_plain]

theorem block_of_plain {e e' : SweepEngine} (h : plainSweep e' = plainSweep e) : e'.block = e.block :=
  show (plainSweep e').block = (plainSweep e).block by rw [h]

theorem state_of_plain {e e' : SweepEngine} (h : plainSweep e' = plainSweep e) : e'.state = e.state :=
  show (plainSweep e').state = (plainSweep e).state by rw [h]

theorem record_of_plain {e e' : SweepEngine} (h : plainSweep e' = plainSweep e) :
    e'.record.map plainRecord = e.record.map plainRecord :=
  show (plainSweep e').record = (plainSweep e).record by rw [h]

/-! ## Who holds the port and who asks for it -/

/-- The downstream request that a requester's unit has outstanding. -/
def claim (s : State) : Requester → Option BusRequest
  | .forward => forwardRequest s.forward.path
  | .link => accessRequest s.access
  | .sweep => blockOutstanding s.sweep

/-- The requester's unit waits for a grant. -/
def asks (s : State) : Requester → Bool
  | .forward => pathWaiting s.forward.path
  | .link => accessWaiting s.access
  | .sweep => blockWaiting s.sweep

@[simp] theorem claim_withArbiter (s : State) (a : Arbiter) (r : Requester) : claim (s.withArbiter a) r = claim s r := by
  cases r <;> rfl
@[simp] theorem asks_withArbiter (s : State) (a : Arbiter) (r : Requester) : asks (s.withArbiter a) r = asks s r := by
  cases r <;> rfl
@[simp] theorem claim_withPort (s : State) (p : Port) (r : Requester) : claim (s.withPort p) r = claim s r := by
  cases r <;> rfl
@[simp] theorem asks_withPort (s : State) (p : Port) (r : Requester) : asks (s.withPort p) r = asks s r := by
  cases r <;> rfl
@[simp] theorem waits_withOwner (a : Arbiter) (o : Option Requester) (r : Requester) :
    waits { a with owner := o } r = waits a r := by cases r <;> rfl
@[simp] theorem waits_passOver (x : Requester) (a : Arbiter) (r : Requester) : waits (passOver x a) r = waits a r := by
  cases r <;> rfl

theorem portSound_iff (s : State) : PortSound s ↔
    s.port.outstanding.map (·.request) = s.arbiter.owner.bind (claim s) ∧
      (∀ r, s.arbiter.owner = some r ↔ (claim s r).isSome = true) ∧ (∀ r, waits s.arbiter r = asks s r) ∧
      (s.arbiter.owner = none → ∀ r, waits s.arbiter r = false) := by
  have howner : ownerRequest s = s.arbiter.owner.bind (claim s) := by
    unfold ownerRequest
    rcases s.arbiter.owner with _ | _ | _ | _ <;> rfl
  have hall {p : Requester → Prop} : (∀ r, p r) ↔ p .forward ∧ p .link ∧ p .sweep :=
    ⟨fun h => ⟨h _, h _, h _⟩, fun ⟨hf, hl, hs⟩ r => by cases r <;> assumption⟩
  rw [PortSound, howner, hall, hall, hall]
  simp only [claim, asks, waits, and_assoc]

/-- A unit that has a request outstanding does not wait for a grant. -/
theorem asks_of_claim {s : State} {r : Requester} (h : (claim s r).isSome = true) : asks s r = false := by
  cases r with
  | forward =>
    revert h; simp only [claim, asks]
    cases s.forward.path <;> simp [forwardRequest, pathWaiting]
  | link =>
    revert h; simp only [claim, asks]
    cases s.access <;> simp [accessRequest, accessWaiting]
  | sweep =>
    revert h
    simp only [claim, asks, blockOutstanding, sweepOutstanding, blockWaiting]
    split
    next r b hr hb =>
      unfold sweepRequest
      split <;> simp_all
    next => simp

/-- The port is sound but for one requester: what its unit says of itself is left out, and the arbiter has it neither as
owner nor waiting. -/
structure PortBut (x : Requester) (s : State) : Prop where
  request : s.port.outstanding.map (·.request) = s.arbiter.owner.bind (claim s)
  owner : ∀ r, r ≠ x → (s.arbiter.owner = some r ↔ (claim s r).isSome = true)
  waiting : ∀ r, r ≠ x → waits s.arbiter r = asks s r
  notOwner : s.arbiter.owner ≠ some x
  notWaiting : waits s.arbiter x = false
  free : s.arbiter.owner = none → ∀ r, waits s.arbiter r = false

/-- The port is held by one requester, whatever its unit says of itself. -/
structure PortHeldBy (x : Requester) (s : State) : Prop where
  owner : s.arbiter.owner = some x
  others : ∀ r, r ≠ x → claim s r = none
  waiting : ∀ r, r ≠ x → waits s.arbiter r = asks s r
  notWaiting : waits s.arbiter x = false

/-- A unit that neither has a request outstanding nor waits for one. -/
abbrev Silent (s : State) (x : Requester) : Prop := claim s x = none ∧ asks s x = false

/-- The units of the requesters but one, the arbiter and the port's request are as they were. -/
structure OthersKept (x : Requester) (s t : State) : Prop where
  request : t.port.outstanding.map (·.request) = s.port.outstanding.map (·.request)
  arbiter : t.arbiter = s.arbiter
  claims : ∀ r, r ≠ x → claim t r = claim s r
  asking : ∀ r, r ≠ x → asks t r = asks s r

theorem portBut_of_silent {s : State} {x : Requester} (h : PortSound s) (hx : Silent s x) : PortBut x s := by
  obtain ⟨hreq, howner, hwait, hfree⟩ := (portSound_iff s).mp h
  exact ⟨hreq, fun r _ => howner r, fun r _ => hwait r, by simp [howner x, hx.1], (hwait x).trans hx.2, hfree⟩

theorem portHeldBy_of_owner {s : State} {x : Requester} (h : PortSound s) (hx : s.arbiter.owner = some x) :
    PortHeldBy x s := by
  obtain ⟨hreq, howner, hwait, hfree⟩ := (portSound_iff s).mp h
  refine ⟨hx, fun r hr => ?_, fun r _ => hwait r, ?_⟩
  · rw [← Option.not_isSome_iff_eq_none, ← howner r, hx]
    exact fun e => hr (Option.some.inj e).symm
  · rw [hwait x]
    exact asks_of_claim ((howner x).mp hx)

/-- A unit that has a request outstanding owns the port. -/
theorem owner_of_claim {s : State} {x : Requester} (h : PortSound s) (hx : (claim s x).isSome = true) :
    s.arbiter.owner = some x := (((portSound_iff s).mp h).2.1 x).mpr hx

theorem PortBut.transfer {s t : State} {x : Requester} (h : PortBut x s) (k : OthersKept x s t) : PortBut x t := by
  have hbind : t.arbiter.owner.bind (claim t) = s.arbiter.owner.bind (claim s) := by
    rw [k.arbiter]
    cases ho : s.arbiter.owner with
    | none => rfl
    | some r => exact k.claims r fun e => h.notOwner (e ▸ ho)
  refine ⟨by rw [k.request, hbind, h.request], fun r hr => ?_, fun r hr => ?_, ?_, ?_, ?_⟩
  · rw [k.arbiter, k.claims r hr]; exact h.owner r hr
  · rw [k.arbiter, k.asking r hr]; exact h.waiting r hr
  · rw [k.arbiter]; exact h.notOwner
  · rw [k.arbiter]; exact h.notWaiting
  · rw [k.arbiter]; exact h.free

theorem PortHeldBy.transfer {s t : State} {x : Requester} (h : PortHeldBy x s) (k : OthersKept x s t) : PortHeldBy x t where
  owner := by rw [k.arbiter]; exact h.owner
  others r hr := by rw [k.claims r hr]; exact h.others r hr
  waiting r hr := by rw [k.arbiter, k.asking r hr]; exact h.waiting r hr
  notWaiting := by rw [k.arbiter]; exact h.notWaiting

/-- A requester whose unit is silent leaves nothing out. -/
theorem PortBut.sound {s : State} {x : Requester} (h : PortBut x s) (hx : Silent s x) : PortSound s := by
  refine (portSound_iff s).mpr ⟨h.request, fun r => ?_, fun r => ?_, h.free⟩
  · by_cases hr : r = x
    · subst hr
      simp [h.notOwner, hx.1]
    · exact h.owner r hr
  · by_cases hr : r = x
    · subst hr
      rw [h.notWaiting, hx.2]
    · exact h.waiting r hr

/-! ### What a grant does to the units -/

theorem grant_sweep_plain {r : Requester} (hr : r ≠ .sweep) (s : State) :
    plainSweep (grant r s).sweep = plainSweep s.sweep := by
  cases r with
  | forward =>
    simp only [grant, issueForward]
    split
    · exact plainSweep_issueReported _ _
    · rfl
  | link =>
    simp only [grant, issueLink]
    split
    · exact plainSweep_issueReported _ _
    · rfl
  | sweep => exact absurd rfl hr

theorem grant_access {r : Requester} (hr : r ≠ .link) (s : State) : (grant r s).access = s.access := by
  cases r with
  | link => exact absurd rfl hr
  | _ => simp [grant]

theorem grant_path {r : Requester} (hr : r ≠ .forward) (s : State) : (grant r s).forward = s.forward := by
  cases r with
  | forward => exact absurd rfl hr
  | _ => simp [grant]

theorem grant_claim_other {r x : Requester} (hr : r ≠ x) (s : State) : claim (grant r s) x = claim s x := by
  cases x with
  | forward => rw [claim, claim, grant_path hr]
  | link => rw [claim, claim, grant_access hr]
  | sweep => exact blockOutstanding_congr (grant_sweep_plain hr s)

theorem grant_asks_other {r x : Requester} (hr : r ≠ x) (s : State) : asks (grant r s) x = asks s x := by
  cases x with
  | forward => rw [asks, asks, grant_path hr]
  | link => rw [asks, asks, grant_access hr]
  | sweep => rw [asks, asks, blockWaiting, blockWaiting, block_of_plain (grant_sweep_plain hr s)]

theorem grant_forward_of_waiting {s : State} {f : Flight} (h : s.forward.path = .waitGrant f) :
    (grant .forward s).forward.path = .outstanding f ∧
      (grant .forward s).port.outstanding.map (·.request) = some (downstreamRequest f) := by
  simp [grant, issueForward, h]

theorem grant_link_of_waiting {s : State} {job : AccessJob} (h : s.access = .waitGrant job) :
    (grant .link s).access = .outstanding job ∧
      (grant .link s).port.outstanding.map (·.request) = some (jobRequest job) := by
  simp [grant, issueLink, h]

/-- The phase that a waiting block is granted into (R134, R138). -/
def grantedPhase : BlockPhase → BlockPhase
  | .waiting => .access
  | .backWaiting => .back
  | p => p

theorem blockWaiting_iff {e : SweepEngine} :
    blockWaiting e = true ↔ ∃ b, e.block = some b ∧ (b.phase = .waiting ∨ b.phase = .backWaiting) := by
  unfold blockWaiting
  cases e.block <;> simp

theorem grant_sweep_of_waiting {s : State} {r : SweepRecord} {b : Block} (hr : s.sweep.record = some r)
    (hb : s.sweep.block = some b) (hp : b.phase = .waiting ∨ b.phase = .backWaiting) :
    (grant .sweep s).sweep = { s.sweep with block := some { b with phase := grantedPhase b.phase } } ∧
      (grant .sweep s).port.outstanding.map (·.request) =
        sweepRequest r { b with phase := grantedPhase b.phase } := by
  have hreq (p : BlockPhase) : blockRequest r.work { b with phase := p } = blockRequest r.work b := by
    cases r.work <;> rfl
  rcases hp with hp | hp <;> simp [grant, issueSweep, hr, hb, hp, sweepRequest, grantedPhase, hreq]

/-- A requester that asks and is granted has its request outstanding, and asks no more (R114). -/
theorem grant_claim_self {s : State} {x : Requester} (h : asks s x = true)
    (hrec : s.sweep.block.isSome = true → s.sweep.record.isSome = true) :
    (claim (grant x s) x).isSome = true ∧
      (grant x s).port.outstanding.map (·.request) = claim (grant x s) x := by
  cases x with
  | forward =>
    cases hp : s.forward.path with
    | waitGrant f =>
      obtain ⟨hpath, hport⟩ := grant_forward_of_waiting hp
      simp [claim, hpath, hport, forwardRequest]
    | _ => simp [asks, hp, pathWaiting] at h
  | link =>
    cases hp : s.access with
    | waitGrant job =>
      obtain ⟨haccess, hport⟩ := grant_link_of_waiting hp
      simp [claim, haccess, hport, accessRequest]
    | _ => simp [asks, hp, accessWaiting] at h
  | sweep =>
    obtain ⟨b, hb, hp⟩ := blockWaiting_iff.mp h
    obtain ⟨r, hr⟩ := Option.isSome_iff_exists.mp (hrec (by simp [hb]))
    obtain ⟨hsweep, hport⟩ := grant_sweep_of_waiting hr hb hp
    have hclaim : claim (grant .sweep s) .sweep = sweepRequest r { b with phase := grantedPhase b.phase } := by
      simp [claim, blockOutstanding, sweepOutstanding, hsweep, hr, Function.comp_def]
    refine ⟨?_, by rw [hport, hclaim]⟩
    rw [hclaim]
    rcases hp with hp | hp <;> simp [sweepRequest, hp, grantedPhase]

/-- What a grant leaves the arbiter. -/
theorem grantedTo_spec (x : Requester) (a : Arbiter) :
    (grantedTo x a).owner = some x ∧ waits (grantedTo x a) x = false ∧
      ∀ r, r ≠ x → waits (grantedTo x a) r = waits a r := by
  refine ⟨by cases x <;> rfl, by cases x <;> rfl, fun r hr => ?_⟩
  revert hr
  cases x <;> cases r <;> simp [grantedTo, waits]

/-- The grant at a port that nobody holds makes the requester's unit the one owner (R113). -/
theorem grant_portSound {s : State} {x : Requester} (hfree : ∀ r, claim s r = none)
    (hwait : ∀ r, r ≠ x → waits s.arbiter r = asks s r) (h : asks s x = true)
    (hrec : s.sweep.block.isSome = true → s.sweep.record.isSome = true) : PortSound (grant x s) := by
  obtain ⟨howner, hself, hothers⟩ := grantedTo_spec x s.arbiter
  obtain ⟨hclaim, hport⟩ := grant_claim_self h hrec
  rw [portSound_iff, grant_arbiter, howner]
  refine ⟨hport, fun r => ?_, fun r => ?_, fun e => nomatch e⟩
  · by_cases hr : x = r
    · subst hr; simp [hclaim]
    · simp [grant_claim_other hr, hfree r, hr]
  · by_cases hr : x = r
    · subst hr; rw [hself, asks_of_claim hclaim]
    · rw [hothers r (Ne.symm hr), grant_asks_other hr, hwait r (Ne.symm hr)]

theorem claim_of_portBut {s : State} {x : Requester} (h : PortBut x s) (ho : s.arbiter.owner = none)
    (hx : claim s x = none) (r : Requester) : claim s r = none := by
  by_cases hr : r = x
  · rw [hr, hx]
  · rw [← Option.not_isSome_iff_eq_none, ← h.owner r hr, ho]
    simp

theorem portIdle_iff (a : Arbiter) : portIdle a = true ↔ a.owner = none ∧ ∀ r, waits a r = false := by
  constructor
  · intro h
    simp only [portIdle, Bool.and_eq_true, Option.isNone_iff_eq_none, Bool.not_eq_true'] at h
    obtain ⟨⟨⟨ho, hf⟩, hl⟩, hs⟩ := h
    exact ⟨ho, fun r => by cases r <;> assumption⟩
  · rintro ⟨ho, hw⟩
    have hf := hw .forward
    have hl := hw .link
    have hs := hw .sweep
    simp_all [portIdle, waits]

theorem joinWaiting_spec (x : Requester) (a : Arbiter) :
    (joinWaiting x a).owner = a.owner ∧ waits (joinWaiting x a) x = true ∧
      ∀ r, r ≠ x → waits (joinWaiting x a) r = waits a r := by
  refine ⟨by cases x <;> rfl, by cases x <;> rfl, fun r hr => ?_⟩
  revert hr
  cases x <;> cases r <;> simp [joinWaiting, waits]

/-- A unit that has come to wait presents its request: the port is sound again, with it granted or waiting (R114). -/
theorem present_portSound {s : State} {x : Requester} (h : PortBut x s) (hclaim : claim s x = none)
    (hasks : asks s x = true) (hrec : s.sweep.block.isSome = true → s.sweep.record.isSome = true) :
    PortSound (present x s) := by
  rw [present_eq]
  split
  next hidle => exact grant_portSound (claim_of_portBut h ((portIdle_iff _).mp hidle).1 hclaim) h.waiting hasks hrec
  next hbusy =>
    obtain ⟨howner, hself, hothers⟩ := joinWaiting_spec x s.arbiter
    refine (portSound_iff _).mpr ⟨?_, fun r => ?_, fun r => ?_, fun ho => ?_⟩
    · rw [State.withArbiter_arbiter, howner]; exact h.request
    · rw [State.withArbiter_arbiter, howner]
      by_cases hr : r = x
      · subst hr
        simp [hclaim, h.notOwner]
      · simpa using h.owner r hr
    · rw [State.withArbiter_arbiter]
      by_cases hr : r = x
      · subst hr; rw [hself, asks_withArbiter, hasks]
      · rw [hothers r hr, asks_withArbiter, h.waiting r hr]
    · rw [State.withArbiter_arbiter, howner] at ho
      exact absurd ((portIdle_iff _).mpr ⟨ho, h.free ho⟩) hbusy

/-- A grant after which the port is sound leaves it sound but for a requester whose unit was left out. -/
theorem grant_portBut {s : State} {x r : Requester} (hr : r ≠ x) (hfree : ∀ y, y ≠ x → claim s y = none)
    (hwait : ∀ y, y ≠ x → waits s.arbiter y = asks s y) (hx : waits s.arbiter x = false) (h : asks s r = true)
    (hrec : s.sweep.block.isSome = true → s.sweep.record.isSome = true) : PortBut x (grant r s) := by
  obtain ⟨howner, hself, hothers⟩ := grantedTo_spec r s.arbiter
  obtain ⟨hclaim, hport⟩ := grant_claim_self h hrec
  refine ⟨?_, fun y hy => ?_, fun y hy => ?_, ?_, ?_, ?_⟩
  · rw [grant_arbiter, howner]; exact hport
  · rw [grant_arbiter, howner]
    by_cases he : r = y
    · subst he; simp [hclaim]
    · simp [grant_claim_other he, hfree y hy, he]
  · rw [grant_arbiter]
    by_cases he : r = y
    · subst he; rw [hself, asks_of_claim hclaim]
    · rw [hothers y (Ne.symm he), grant_asks_other he, hwait y hy]
  · rw [grant_arbiter, howner]; exact fun e => hr (Option.some.inj e)
  · rw [grant_arbiter, hothers x (Ne.symm hr)]; exact hx
  · rw [grant_arbiter, howner]; exact fun e => nomatch e

/-- The requester that a grant decision chooses, where `x` has just freed the port: another one, which waits. -/
theorem freePort_cases {s : State} {x : Requester} (h : PortHeldBy x s) (b : Bool) :
    (NobodyWaits s.arbiter ∧ freePort b s = (s.withPort { outstanding := none, aborted := b }).withArbiter
        { s.arbiter with owner := none }) ∨
      ∃ r, r ≠ x ∧ asks s r = true ∧
        freePort b s = grant r ((s.withPort { outstanding := none, aborted := b }).withArbiter
          (passOver r { s.arbiter with owner := none })) := by
  unfold freePort decideGrant
  split
  next r hr =>
    have hwaits : waits s.arbiter r = true := by
      have := chooseRequester_waits hr
      cases r <;> exact this
    have hne : r ≠ x := fun e => by rw [e, h.notWaiting] at hwaits; cases hwaits
    exact .inr ⟨r, hne, (h.waiting r hne).symm.trans hwaits, rfl⟩
  next hr => exact .inl ⟨chooseRequester_none.mp hr, rfl⟩

/-- The port freed by its owner: sound but for that one (R117). -/
theorem freePort_portBut {s : State} {x : Requester} (h : PortHeldBy x s)
    (hrec : s.sweep.block.isSome = true → s.sweep.record.isSome = true) (b : Bool) : PortBut x (freePort b s) := by
  rcases freePort_cases h b with ⟨⟨hf, hl, hs⟩, he⟩ | ⟨r, hr, hasks, he⟩
  · have hnone (r : Requester) : waits s.arbiter r = false := by cases r <;> assumption
    rw [he]
    refine ⟨rfl, fun r hr => ?_, fun r hr => ?_, nofun, ?_, fun _ r => ?_⟩
    · simp [h.others r hr]
    · simpa using h.waiting r hr
    · simpa using hnone x
    · simpa using hnone r
  · rw [he]
    refine grant_portBut hr (fun y hy => ?_) (fun y hy => ?_) ?_ ?_ hrec
    · simpa using h.others y hy
    · simpa using h.waiting y hy
    · simpa using h.notWaiting
    · simpa using hasks

end Sys2Proof.Proofs

namespace Sys2Proof.Proofs

open Sys2Proof.Machine

set_option Elab.async false

/-! ## What a grant moves

A grant moves the granted unit from waiting to outstanding, and may set the flag DISTURBED; nothing that the other
constraints of a sound state speak of can tell. -/

/-- The path is as it was, or its request has been granted. -/
abbrev PathMoved (p p' : Path) : Prop := p' = p ∨ ∃ f, p = .waitGrant f ∧ p' = .outstanding f

/-- The link access unit is as it was, or its access has been granted. -/
abbrev AccessMoved (a a' : Access) : Prop := a' = a ∨ ∃ job, a = .waitGrant job ∧ a' = .outstanding job

/-- The block in hand is as it was, or its access has been granted. -/
abbrev BlockMoved (b b' : Option Block) : Prop :=
  b' = b ∨ ∃ x, b = some x ∧ (x.phase = .waiting ∨ x.phase = .backWaiting) ∧
    b' = some { x with phase := grantedPhase x.phase }

/-- What a grant decision can do apart from the arbiter and the port. -/
structure GrantMoves (s t : State) : Prop where
  pins : t.pins = s.pins
  control : t.control = s.control
  capture : t.capture = s.capture
  link : t.link = s.link
  path : PathMoved s.forward.path t.forward.path
  access : AccessMoved s.access t.access
  state : t.sweep.state = s.sweep.state
  record : t.sweep.record.map plainRecord = s.sweep.record.map plainRecord
  block : BlockMoved s.sweep.block t.sweep.block

theorem issueSweep_cases (s : State) :
    (issueSweep s).forward = s.forward ∧ (issueSweep s).sweep.state = s.sweep.state ∧
      (issueSweep s).sweep.record = s.sweep.record ∧ BlockMoved s.sweep.block (issueSweep s).sweep.block := by
  unfold issueSweep
  split
  next r b hr hb =>
    split
    next hp => exact ⟨rfl, rfl, rfl, .inr ⟨b, hb, .inl hp, by simp [hp, grantedPhase]⟩⟩
    next hp => exact ⟨rfl, rfl, rfl, .inr ⟨b, hb, .inr hp, by simp [hp, grantedPhase]⟩⟩
    next => exact ⟨rfl, rfl, rfl, .inl rfl⟩
  next => exact ⟨rfl, rfl, rfl, .inl rfl⟩

theorem grant_moves (r : Requester) (s : State) : GrantMoves s (grant r s) := by
  have plain (h : r ≠ .sweep) := grant_sweep_plain h s
  cases r with
  | forward =>
    refine ⟨grant_pins _ s, grant_control _ s, grant_capture _ s, grant_link _ s, ?_, .inl (grant_access (r := .forward) nofun s),
      state_of_plain (plain nofun), record_of_plain (plain nofun), .inl (block_of_plain (plain nofun))⟩
    simp only [grant, issueForward_forward, State.withArbiter_forward]
    split
    next f hf => exact .inr ⟨f, hf, rfl⟩
    next => exact .inl rfl
  | link =>
    refine ⟨grant_pins _ s, grant_control _ s, grant_capture _ s, grant_link _ s,
      .inl (congrArg Forwarding.path (grant_path (r := .link) nofun s)), ?_, state_of_plain (plain nofun),
      record_of_plain (plain nofun), .inl (block_of_plain (plain nofun))⟩
    simp only [grant, issueLink_access, State.withArbiter_access]
    split
    next job hjob => exact .inr ⟨job, hjob, rfl⟩
    next => exact .inl rfl
  | sweep =>
    obtain ⟨-, hstate, hrecord, hblock⟩ := issueSweep_cases (s.withArbiter (grantedTo .sweep s.arbiter))
    exact ⟨grant_pins _ s, grant_control _ s, grant_capture _ s, grant_link _ s,
      .inl (congrArg Forwarding.path (grant_path (r := .sweep) nofun s)), .inl (grant_access (r := .sweep) nofun s), hstate,
      congrArg (Option.map plainRecord) hrecord, hblock⟩

/-- What the arbiter and the port hold does not count as moved. -/
theorem GrantMoves.of_ports {s t u : State} (h : GrantMoves t u) (a : Arbiter) (p : Port)
    (ht : t = (s.withPort p).withArbiter a) : GrantMoves s u := by
  subst ht
  exact ⟨h.pins, h.control, h.capture, h.link, h.path, h.access, h.state, h.record, h.block⟩

theorem grantMoves_ports (s : State) (a : Arbiter) (p : Port) : GrantMoves s ((s.withPort p).withArbiter a) :=
  ⟨rfl, rfl, rfl, rfl, .inl rfl, .inl rfl, rfl, rfl, .inl rfl⟩

theorem present_moves (r : Requester) (s : State) : GrantMoves s (present r s) := by
  rw [present_eq]
  split
  · exact grant_moves r s
  · exact grantMoves_ports s _ s.port

theorem freePort_moves (b : Bool) (s : State) : GrantMoves s (freePort b s) := by
  unfold freePort decideGrant
  split
  · exact (grant_moves _ _).of_ports (passOver _ _) { outstanding := none, aborted := b } rfl
  · exact grantMoves_ports s _ _

namespace GrantMoves

variable {s t : State} (h : GrantMoves s t)
include h

theorem idle_iff : t.forward.path = .idle ↔ s.forward.path = .idle := by
  rcases h.path with e | ⟨f, e, e'⟩
  · rw [e]
  · simp [e, e']

theorem isHeld_eq : isHeld t.forward.path = isHeld s.forward.path := by
  rcases h.path with e | ⟨f, e, e'⟩
  · rw [e]
  · rw [e, e']; rfl

theorem access_idle_iff : t.access = .idle ↔ s.access = .idle := by
  rcases h.access with e | ⟨job, e, e'⟩
  · rw [e]
  · simp [e, e']

/-- A granted block is begun. -/
theorem blockBegun_of (hb : blockBegun s.sweep = true) : blockBegun t.sweep = true := by
  rcases h.block with e | ⟨x, e, hp, e'⟩
  · simpa [blockBegun, e] using hb
  · rcases hp with hp | hp <;> simp [blockBegun, e', hp, grantedPhase]

end GrantMoves

/-! ## The constraints, unit by unit -/

/-- The constraints of SweepSound as they bear on the engine. -/
abbrev EngineSound (e : SweepEngine) : Prop :=
  (e.state = .idle → ∀ r ∈ e.record, r.outcome ≠ .pending ∧ r.done ≤ r.count) ∧
    (e.state ≠ .idle → e.record.isSome = true) ∧
    (e.state ≠ .idle → ∀ r ∈ e.record, sweepInRange r) ∧
    (e.state = .running ↔ e.block.isSome = true) ∧
    (∀ r ∈ e.record, ∀ b ∈ e.block, blockInRange r b)

theorem sweepSound_iff (s : State) : SweepSound s ↔ EngineSound s.sweep := Iff.rfl

theorem blockInRange_plain (r : SweepRecord) (b : Block) : blockInRange (plainRecord r) b ↔ blockInRange r b := by
  simp only [blockInRange, plainRecord, workCode_plain, workVerify_plain, blockLength]

theorem engineSound_plain (e : SweepEngine) : EngineSound (plainSweep e) ↔ EngineSound e := by
  obtain ⟨st, record, block⟩ := e
  cases record with
  | none => exact Iff.rfl
  | some r =>
    simp only [EngineSound, plainSweep, Option.map_some, Option.mem_some_iff, forall_eq', blockInRange_plain]
    exact Iff.rfl

theorem blockInRange_granted {r : SweepRecord} {b : Block} (h : blockInRange r b)
    (hp : b.phase = .waiting ∨ b.phase = .backWaiting) : blockInRange r { b with phase := grantedPhase b.phase } := by
  obtain ⟨haddr, hcount, hwords, hback⟩ := h
  refine ⟨haddr, hcount, hwords, fun hphase => hback ?_⟩
  rcases hp with hp | hp
  · simp [hp, grantedPhase] at hphase
  · exact .inl hp

theorem GrantMoves.sweepSound {s t : State} (h : GrantMoves s t) (hs : SweepSound s) : SweepSound t := by
  have hplain : EngineSound (plainSweep t.sweep) := by
    obtain ⟨hidle, hsome, hrange, hrun, hblock⟩ := (engineSound_plain s.sweep).mpr hs
    have hrecord : (plainSweep t.sweep).record = (plainSweep s.sweep).record := h.record
    have hstate : (plainSweep t.sweep).state = (plainSweep s.sweep).state := h.state
    refine ⟨?_, ?_, ?_, ?_, ?_⟩
    · rw [hstate, hrecord]; exact hidle
    · rw [hstate, hrecord]; exact hsome
    · rw [hstate, hrecord]; exact hrange
    · rw [hstate, hrun]
      rcases h.block with e | ⟨x, e, -, e'⟩
      · exact Iff.of_eq (by simp [plainSweep, e])
      · simp [plainSweep, e, e']
    · rw [hrecord]
      intro r hr b hb
      rcases h.block with e | ⟨x, e, hp, e'⟩
      · exact hblock r hr b (by simpa [plainSweep, e] using hb)
      · obtain rfl : { x with phase := grantedPhase x.phase } = b := by simpa [plainSweep, e'] using hb
        exact blockInRange_granted (hblock r hr x (by simp [plainSweep, e])) hp
  exact (engineSound_plain t.sweep).mp hplain

theorem GrantMoves.partSound {s t : State} (h : GrantMoves s t) (hs : PartSound s) : PartSound t := by
  obtain ⟨hclear, hforced, hfbyp⟩ := hs
  refine ⟨?_, ?_, ?_⟩
  · rw [h.control]; exact hclear
  · rw [h.control]; exact hforced
  · rw [h.control, h.pins, h.idle_iff]; exact hfbyp

theorem GrantMoves.holdSound {s t : State} (h : GrantMoves s t) (hs : HoldSound s) : HoldSound t := by
  rw [HoldSound, h.isHeld_eq, h.capture]; exact hs

theorem GrantMoves.linkSound {s t : State} (h : GrantMoves s t) (hs : LinkSound s) : LinkSound t := by
  rw [LinkSound, h.link]; exact hs

/-! ### Passed-over counts -/

/-- The constraints of CountsSound as they bear on the arbiter. -/
abbrev CountsFit (a : Arbiter) : Prop :=
  a.linkPassed ≤ 255 ∧ a.sweepPassed ≤ 255 ∧ (a.linkPassed ≠ 0 → a.waitLink = true) ∧
    (a.sweepPassed ≠ 0 → a.waitSweep = true)

theorem countsFit_grantedTo (r : Requester) {a : Arbiter} (h : CountsFit a) : CountsFit (grantedTo r a) := by
  obtain ⟨hl, hs, hwl, hws⟩ := h
  cases r with
  | forward => exact ⟨hl, hs, hwl, hws⟩
  | link => exact ⟨Nat.zero_le _, hs, fun e => absurd rfl e, hws⟩
  | sweep => exact ⟨hl, Nat.zero_le _, hwl, fun e => absurd rfl e⟩

theorem countsFit_joinWaiting (r : Requester) {a : Arbiter} (h : CountsFit a) : CountsFit (joinWaiting r a) := by
  obtain ⟨hl, hs, hwl, hws⟩ := h
  cases r with
  | forward => exact ⟨hl, hs, hwl, hws⟩
  | link => exact ⟨hl, hs, fun _ => rfl, hws⟩
  | sweep => exact ⟨hl, hs, hwl, fun _ => rfl⟩

/-- A count that rises belongs to a requester that waits (R116). -/
theorem countsFit_passOver (r : Requester) {a : Arbiter} (h : CountsFit a) : CountsFit (passOver r a) := by
  have raised {n : Nat} {w c : Bool} (hn : n ≤ 255) (hw : n ≠ 0 → w = true) :
      (if w && c then raiseCount n else n) ≤ 255 ∧ ((if w && c then raiseCount n else n) ≠ 0 → w = true) := by
    split
    next hwc => exact ⟨Nat.min_le_right _ _, fun _ => (Bool.and_eq_true_iff.mp hwc).1⟩
    next => exact ⟨hn, hw⟩
  obtain ⟨hl, hs, hwl, hws⟩ := h
  exact ⟨(raised hl hwl).1, (raised hs hws).1, (raised hl hwl).2, (raised hs hws).2⟩

theorem present_counts (r : Requester) {s : State} (h : CountsSound s) : CountsSound (present r s) := by
  rw [present_eq]
  split
  · rw [CountsSound, grant_arbiter]; exact countsFit_grantedTo r h
  · exact countsFit_joinWaiting r h

theorem freePort_counts (b : Bool) {s : State} (h : CountsSound s) : CountsSound (freePort b s) := by
  unfold freePort decideGrant
  split
  · rw [CountsSound, grant_arbiter]; exact countsFit_grantedTo _ (countsFit_passOver _ h)
  · exact h

end Sys2Proof.Proofs

namespace Sys2Proof.Proofs

open Sys2Proof.Machine

set_option Elab.async false

/-! ## States that are sound alike

Causes, configuration, times, slots, store, records and the flags of a sweep are no part of what the constraints between
the units speak of. -/

/-- Equal in all that the constraints between the units speak of. -/
structure Alike (s t : State) : Prop where
  reset : t.pins.reset = s.pins.reset
  fbyp : t.pins.fbyp = s.pins.fbyp
  part : t.control.part = s.control.part
  forced : t.control.forced = s.control.forced
  clear : t.control.clear = s.control.clear
  path : t.forward.path = s.forward.path
  held : t.capture.held.isSome = s.capture.held.isSome
  arbiter : t.arbiter = s.arbiter
  request : t.port.outstanding.map (·.request) = s.port.outstanding.map (·.request)
  access : t.access = s.access
  sweep : plainSweep t.sweep = plainSweep s.sweep
  link : t.link = s.link

theorem Alike.refl (s : State) : Alike s s := ⟨rfl, rfl, rfl, rfl, rfl, rfl, rfl, rfl, rfl, rfl, rfl, rfl⟩

theorem Alike.trans {s t u : State} (h : Alike s t) (k : Alike t u) : Alike s u :=
  ⟨k.reset.trans h.reset, k.fbyp.trans h.fbyp, k.part.trans h.part, k.forced.trans h.forced, k.clear.trans h.clear,
    k.path.trans h.path, k.held.trans h.held, k.arbiter.trans h.arbiter, k.request.trans h.request,
    k.access.trans h.access, k.sweep.trans h.sweep, k.link.trans h.link⟩

namespace Alike

variable {s t : State} (h : Alike s t)
include h

theorem claim_eq (r : Requester) : claim t r = claim s r := by
  cases r with
  | forward => rw [claim, claim, h.path]
  | link => rw [claim, claim, h.access]
  | sweep => exact blockOutstanding_congr h.sweep

theorem asks_eq (r : Requester) : asks t r = asks s r := by
  cases r with
  | forward => rw [asks, asks, h.path]
  | link => rw [asks, asks, h.access]
  | sweep => rw [asks, asks, blockWaiting, blockWaiting, block_of_plain h.sweep]

theorem othersKept (x : Requester) : OthersKept x s t :=
  ⟨h.request, h.arbiter, fun r _ => h.claim_eq r, fun r _ => h.asks_eq r⟩

theorem portSound (hs : PortSound s) : PortSound t := by
  have hclaim : claim t = claim s := funext h.claim_eq
  have hasks : asks t = asks s := funext h.asks_eq
  rw [portSound_iff, h.request, h.arbiter, hclaim, hasks, ← portSound_iff]
  exact hs

theorem partSound (hs : PartSound s) : PartSound t := by
  rw [PartSound, h.part, h.clear, h.forced, h.fbyp, h.path]; exact hs

theorem countsSound (hs : CountsSound s) : CountsSound t := by rw [CountsSound, h.arbiter]; exact hs

theorem sweepSound (hs : SweepSound s) : SweepSound t := by
  rw [sweepSound_iff, ← engineSound_plain, h.sweep, engineSound_plain]
  exact hs

theorem holdSound (hs : HoldSound s) : HoldSound t := by rw [HoldSound, h.path, h.held]; exact hs

theorem linkSound (hs : LinkSound s) : LinkSound t := by rw [LinkSound, h.link]; exact hs

theorem blockBegun_eq : blockBegun t.sweep = blockBegun s.sweep := by
  rw [blockBegun, blockBegun, block_of_plain h.sweep]

end Alike

/-! ### Changes that leave a state sound alike -/

theorem alike_withTable (s : State) (x : List Slot) : Alike s (s.withTable x) :=
  ⟨rfl, rfl, rfl, rfl, rfl, rfl, rfl, rfl, rfl, rfl, rfl, rfl⟩

theorem alike_withStore (s : State) (m : Store) : Alike s (s.withStore m) :=
  ⟨rfl, rfl, rfl, rfl, rfl, rfl, rfl, rfl, rfl, rfl, rfl, rfl⟩

theorem alike_setStatus (s : State) (i : Nat) (x : SlotStatus) : Alike s (s.setStatus i x) := alike_withTable s _

theorem alike_raise (c : Cause) (s : State) : Alike s (raise c s) :=
  ⟨rfl, rfl, rfl, rfl, rfl, rfl, rfl, rfl, rfl, rfl, rfl, rfl⟩

theorem alike_checkLevel (s : State) : Alike s (checkLevel s) := by
  unfold checkLevel
  split
  · exact alike_raise _ s
  · exact .refl s

/-- A change of the capture unit that leaves whether an offer is held. -/
theorem alike_withCapture (s : State) {c : Capture} (h : c.held.isSome = s.capture.held.isSome) :
    Alike s (s.withCapture c) := ⟨rfl, rfl, rfl, rfl, rfl, rfl, h, rfl, rfl, rfl, rfl, rfl⟩

/-- A change of the control unit that leaves part state, forced indication and clear. -/
theorem alike_withControl (s : State) {c : Control} (hp : c.part = s.control.part) (hf : c.forced = s.control.forced)
    (hc : c.clear = s.control.clear) : Alike s (s.withControl c) :=
  ⟨rfl, rfl, hp, hf, hc, rfl, rfl, rfl, rfl, rfl, rfl, rfl⟩

theorem alike_dropRecord (s : State) : Alike s (dropRecord s) :=
  (alike_withCapture s (by exact rfl)).trans (alike_raise _ _)

theorem alike_appendRecord (o : CaptureOffer) (s : State) : Alike s (admitRecord o s) :=
  (alike_withCapture s (by exact rfl)).trans (alike_checkLevel _)

theorem alike_removeOldest (n : Nat) (s : State) : Alike s (removeOldest n s) :=
  (alike_withCapture s (by exact rfl)).trans (alike_checkLevel _)

theorem alike_writeConfig (c : ConfigSet) (s : State) : Alike s (writeConfig c s) :=
  (alike_withControl s (by exact rfl) (by exact rfl) (by exact rfl)).trans (alike_checkLevel _)

theorem alike_clearCauses (c : CauseSet) (s : State) : Alike s (clearCauses c s) :=
  (alike_withControl s (by exact rfl) (by exact rfl) (by exact rfl)).trans (alike_checkLevel _)

theorem alike_tick (s : State) : Alike s (tick s) :=
  (alike_withControl s (by exact rfl) (by exact rfl) (by exact rfl)).trans (alike_withCapture _ (by simp))

theorem alike_updateRecord {f : SweepRecord → SweepRecord} (hf : ∀ r, plainRecord (f r) = plainRecord r) (s : State) :
    Alike s (updateRecord f s) :=
  ⟨rfl, rfl, rfl, rfl, rfl, rfl, rfl, rfl, rfl, rfl, plainSweep_updateRecord hf s, rfl⟩

theorem alike_reportHandoff (c : SlotConfig) (s : State) : Alike s (reportHandoff c s) := by
  unfold reportHandoff
  split
  · split
    · exact alike_updateRecord plainRecord_setOverlap s
    · exact .refl s
  · exact .refl s

theorem alike_reportShadowWrite (offset : Nat) (l : Lanes) (s : State) : Alike s (reportShadowWrite offset l s) := by
  unfold reportShadowWrite
  split
  · split
    · exact alike_updateRecord plainRecord_disturbed s
    · exact .refl s
  · exact .refl s

theorem alike_spend (i : Nat) (s : State) : Alike s (spend i s) := alike_setStatus s _ _

theorem alike_handOff (i target : Nat) (s : State) : Alike s (handOff i target s) := by
  unfold handOff
  split
  · exact (alike_setStatus s _ _).trans (alike_reportHandoff _ _)
  · exact (alike_setStatus s _ _).trans (alike_raise _ _)

theorem alike_limitAction (i : Nat) (s : State) : Alike s (limitAction i s) := by
  unfold limitAction
  split
  · exact .refl s
  · exact alike_spend i s
  · exact (alike_spend i s).trans (alike_handOff _ _ _)

theorem alike_noteLost (x : SlotStatus) (s : State) : Alike s (noteLost x s) := by
  unfold noteLost
  split
  · exact alike_raise _ s
  · exact .refl s

theorem alike_noteAlert (c : SlotConfig) (s : State) : Alike s (noteAlert c s) := by
  unfold noteAlert
  split
  · exact alike_raise _ s
  · exact .refl s

theorem alike_noteMark (c : SlotConfig) (s : State) : Alike s (noteMark c s) := by
  unfold noteMark
  split
  · exact ⟨rfl, rfl, rfl, rfl, rfl, rfl, rfl, rfl, rfl, rfl, rfl, rfl⟩
  · exact .refl s

theorem alike_noteLimit (i : Nat) (x : Slot) (s : State) : Alike s (noteLimit i x s) := by
  unfold noteLimit
  split
  · exact (alike_raise _ s).trans (alike_limitAction i _)
  · exact .refl s

theorem alike_accountHit (k : Kind) (ts : Word) (i a : Nat) (s : State) : Alike s (accountHit k ts i a s) := by
  unfold accountHit accountHitOf
  exact ((((alike_noteLost _ s).trans (alike_setStatus _ i _)).trans (alike_noteAlert _ _)).trans
    (alike_noteMark _ _)).trans (alike_noteLimit i _ _)

theorem alike_accountFault (d : Decided) (i : Nat) (s : State) : Alike s (accountFault d i s) := by
  have flagged : Alike s (flagFault i s) := (alike_setStatus s _ _).trans (alike_raise _ _)
  unfold accountFault
  split
  · split
    · exact flagged.trans (alike_spend i _)
    · exact flagged
  · exact .refl s

theorem alike_accountSlots (k : Kind) (ts : Word) (d : Decided) (hits : List (Nat × Nat)) (s : State) :
    Alike s (accountSlots k ts d hits s) := by
  induction hits generalizing s with
  | nil => exact .refl s
  | cons p rest ih => exact ((alike_accountHit k ts p.1 p.2 s).trans (alike_accountFault d p.1 _)).trans (ih _)

theorem alike_shadowWrites (snap : List SnapSlot) (ws : List (WordDecision × WriteWord)) (s : State) :
    Alike s (shadowWrites snap ws s) := by
  induction ws generalizing s with
  | nil => exact .refl s
  | cons p rest ih =>
    unfold shadowWrites
    split
    · split
      · exact ((alike_withStore s _).trans (alike_reportShadowWrite _ _ _)).trans (ih _)
      · exact ih s
    · exact ih s

theorem alike_settleUnits (r : BusRequest) (d : Decided) (o : RequestOutcome) (s : State) :
    Alike s (settleUnits r d o s) := by
  unfold settleUnits settleStore
  split
  · exact (alike_accountSlots _ _ _ _ s).trans (alike_shadowWrites _ _ _)
  · exact alike_accountSlots _ _ _ _ s

/-! ## The link interface of a command in progress -/

/-- The command at the head of the queue is in progress: its entry is the newest, and the only reserved one (R158). -/
structure Busy (l : LinkInterface) : Prop where
  head : ∃ q rest held, l.commands = q :: rest ∧ l.responses = held ++ [.reserved q.seq] ∧
    held.all isHeldEntry = true
  commands : l.commands.length ≤ Config.linkDepth
  responses : l.responses.length ≤ Config.linkDepth
  lastSent : referenceSound l l.lastSent
  exchange : ∀ x ∈ l.exchange, referenceSound l x.chosen

theorem busy_of_executing {s : State} (h : LinkSound s) (he : s.link.executing ≠ none) : Busy s.link := by
  obtain ⟨⟨hcommands, hresponses, -, hbusy⟩, hlast, hexchange⟩ := h
  obtain ⟨hne, hnewest, hheld⟩ := hbusy he
  obtain ⟨q, rest, hq⟩ := List.exists_cons_of_ne_nil hne
  refine ⟨⟨q, rest, s.link.responses.dropLast, hq, ?_, hheld⟩, hcommands, hresponses, hlast, hexchange⟩
  exact (List.dropLast_append_getLast? _ (by rw [hnewest, hq]; rfl)).symm

/-- The head command starts with an entry reserved for it (R158). -/
theorem busy_reserve {s : State} {q : QueuedCommand} {rest : List QueuedCommand} (h : LinkSound s)
    (hq : s.link.commands = q :: rest) (hstart : mayStart s = true) : Busy (reserve q.seq s).link := by
  obtain ⟨⟨hcommands, -, hheld, -⟩, ⟨hrefusal, hresponse⟩, hexchange⟩ := h
  simp only [mayStart, Bool.and_eq_true, Option.isNone_iff_eq_none, decide_eq_true_eq] at hstart
  obtain ⟨⟨-, he⟩, hlen⟩ := hstart
  have more (x : Sent) (hx : x = .response → heldResponses s.link.responses ≠ []) :
      x = .response → heldResponses (s.link.responses ++ [.reserved q.seq]) ≠ [] := fun e => by
    rw [heldResponses_append]
    exact List.append_ne_nil_of_left_ne_nil (hx e) _
  exact {
    head := ⟨q, rest, s.link.responses, hq, rfl, hheld he⟩
    commands := hcommands
    responses := by simpa [reserve] using hlen
    lastSent := ⟨hrefusal, more _ hresponse⟩
    exchange := fun x hx => ⟨(hexchange x hx).1, more _ (hexchange x hx).2⟩ }

theorem queuesSound_of_busy {l : LinkInterface} (h : Busy l) (e : Executing) :
    QueuesSound { l with executing := some e } := by
  obtain ⟨q, rest, held, hq, hr, hheld⟩ := h.head
  refine ⟨h.commands, h.responses, nofun, fun _ => ⟨by simp [hq], ?_, ?_⟩⟩
  · simp [hq, hr]
  · simpa [hr] using hheld

theorem linkSound_await {s : State} (h : Busy s.link) (e : Executing) : LinkSound (await e s) :=
  ⟨queuesSound_of_busy h e, h.lastSent, h.exchange⟩

/-- A completion fills the reserved entry, so that all are held (R160). -/
theorem linkSound_complete {s : State} (h : Busy s.link) (st : Status) (p : List Byte) :
    LinkSound (complete st p s) := by
  obtain ⟨q, rest, held, hq, hr, hheld⟩ := h.head
  have hlink : (complete st p s).link = { s.link with
      commands := rest, executing := none, responses := held ++ [.held ⟨q.seq, st, p⟩] } := by
    simp [complete, hq, hr, fillReserved_append hheld]
  have hcommands := h.commands
  have hresponses := h.responses
  rw [hq, List.length_cons] at hcommands
  rw [hr, List.length_append, List.length_singleton] at hresponses
  have href (k : Sent) (hk : referenceSound s.link k) : referenceSound { s.link with
      commands := rest, executing := none, responses := held ++ [.held ⟨q.seq, st, p⟩] } k :=
    ⟨hk.1, fun _ => by rw [heldResponses_append]; exact List.append_ne_nil_of_right_ne_nil _ (by simp [heldResponses])⟩
  rw [LinkSound, hlink]
  refine ⟨⟨Nat.le_of_succ_le hcommands, by simpa using hresponses, fun _ => ?_, fun e => absurd rfl e⟩,
    href _ h.lastSent, fun x hx => href _ (h.exchange x hx)⟩
  simp [List.all_append, hheld, isHeldEntry]

/-! ## Steady states, and states on the way between them

A step passes through states that are not sound: a unit has ended its access and not yet said so, or a command has been
taken and not yet answered. What each of them lacks is a part of its own. -/

/-- What a sound state is with RESET released, but for the sweep engine and the port, and for store, table and capture
queue. -/
structure FitButSweep (s : State) : Prop where
  running : s.pins.reset = false
  part : PartSound s
  counts : CountsSound s
  hold : HoldSound s
  link : LinkSound s
  accessing : s.link.executing = some .access ↔ s.access ≠ .idle
  resetIdle : s.link.executing = some .softResetBlock → s.forward.path = .idle
  resetHeld : softResetWaits s = true → isHeld s.forward.path = false
  past : s.control.part = .starting → s.link.executing = none

/-- The executing command waits for the block in hand (R141, R143, R173). -/
abbrev waitsForBlock (l : LinkInterface) : Prop :=
  l.executing = some .suspend ∨ l.executing = some .abort ∨ l.executing = some .softResetBlock

/-- The same with the sweep engine, but for the port. -/
structure Fit (s : State) : Prop extends FitButSweep s where
  sweep : SweepSound s
  begun : waitsForBlock s.link → blockBegun s.sweep = true

/-- What a sound state is with RESET released, but for store, table and capture queue. -/
structure Steady (s : State) : Prop extends Fit s where
  port : PortSound s

/-- The head command is in progress, and its unit neither has an access outstanding nor waits for one; but for the port. -/
structure TakenFit (s : State) : Prop where
  running : s.pins.reset = false
  part : PartSound s
  counts : CountsSound s
  hold : HoldSound s
  link : Busy s.link
  access : s.access = .idle
  sweep : SweepSound s

/-- The head command is in progress, and has not yet answered or come to wait for an access. -/
structure Taken (s : State) : Prop extends TakenFit s where
  port : PortSound s

theorem Fit.wait {s : State} (h : Fit s) : WaitSound s := ⟨h.accessing, h.begun, h.resetIdle, h.resetHeld, h.past⟩

/-- The block in hand is that of a sweep. -/
theorem record_of_block {s : State} (h : SweepSound s) (hb : s.sweep.block.isSome = true) :
    s.sweep.record.isSome = true := by
  obtain ⟨-, hsome, -, hrun, -⟩ := h
  exact hsome (by rw [hrun.mpr hb]; decide)

theorem FitButSweep.alike {s t : State} (h : FitButSweep s) (k : Alike s t) : FitButSweep t where
  running := k.reset.trans h.running
  part := k.partSound h.part
  counts := k.countsSound h.counts
  hold := k.holdSound h.hold
  link := k.linkSound h.link
  accessing := by rw [k.link, k.access]; exact h.accessing
  resetIdle := by rw [k.link, k.path]; exact h.resetIdle
  resetHeld := by rw [softResetWaits, k.link, k.path]; exact h.resetHeld
  past := by rw [k.link, k.part]; exact h.past

theorem Fit.alike {s t : State} (h : Fit s) (k : Alike s t) : Fit t where
  toFitButSweep := h.toFitButSweep.alike k
  sweep := k.sweepSound h.sweep
  begun := by rw [k.link, k.blockBegun_eq]; exact h.begun

theorem Steady.alike {s t : State} (h : Steady s) (k : Alike s t) : Steady t := ⟨h.toFit.alike k, k.portSound h.port⟩

theorem Taken.alike {s t : State} (h : Taken s) (k : Alike s t) : Taken t where
  running := k.reset.trans h.running
  part := k.partSound h.part
  counts := k.countsSound h.counts
  hold := k.holdSound h.hold
  link := k.link ▸ h.link
  access := k.access.trans h.access
  sweep := k.sweepSound h.sweep
  port := k.portSound h.port

/-! ### Across a grant -/

theorem FitButSweep.moved {s t : State} (h : FitButSweep s) (k : GrantMoves s t) (hcounts : CountsSound t) :
    FitButSweep t where
  running := by rw [k.pins]; exact h.running
  part := k.partSound h.part
  counts := hcounts
  hold := k.holdSound h.hold
  link := k.linkSound h.link
  accessing := by rw [k.link, ne_eq, k.access_idle_iff]; exact h.accessing
  resetIdle := by rw [k.link, k.idle_iff]; exact h.resetIdle
  resetHeld := by rw [softResetWaits, k.link, k.isHeld_eq]; exact h.resetHeld
  past := by rw [k.link, k.control]; exact h.past

theorem Fit.moved {s t : State} (h : Fit s) (k : GrantMoves s t) (hcounts : CountsSound t) : Fit t where
  toFitButSweep := h.toFitButSweep.moved k hcounts
  sweep := k.sweepSound h.sweep
  begun hw := k.blockBegun_of (h.begun (k.link ▸ hw))

/-- A unit that has come to wait presents its request (R114). -/
theorem steady_present {s : State} {x : Requester} (h : Fit s) (hport : PortBut x s) (hclaim : claim s x = none)
    (hasks : asks s x = true) : Steady (present x s) where
  toFit := h.moved (present_moves x s) (present_counts x h.counts)
  port := present_portSound hport hclaim hasks (record_of_block h.sweep)

theorem FitButSweep.freePort {s : State} (h : FitButSweep s) (b : Bool) : FitButSweep (freePort b s) :=
  h.moved (freePort_moves b s) (freePort_counts b h.counts)

theorem Fit.freePort {s : State} (h : Fit s) (b : Bool) : Fit (freePort b s) :=
  h.moved (freePort_moves b s) (freePort_counts b h.counts)

/-! ### The start and the completion of a command -/

/-- A command that waits for something other than an access is in progress. -/
theorem taken_of_executing {s : State} (h : Steady s) (he : s.link.executing ≠ none)
    (ha : s.link.executing ≠ some .access) : Taken s :=
  ⟨⟨h.running, h.part, h.counts, h.hold, busy_of_executing h.link he,
    Decidable.not_not.mp fun e => ha (h.accessing.mpr e), h.sweep⟩, h.port⟩

theorem executing_of_mayStart {s : State} (h : mayStart s = true) : s.link.executing = none := by
  simp only [mayStart, Bool.and_eq_true, Option.isNone_iff_eq_none] at h
  exact h.1.2

theorem taken_reserve {s : State} {q : QueuedCommand} {rest : List QueuedCommand} (h : Steady s)
    (hq : s.link.commands = q :: rest) (hstart : mayStart s = true) : Taken (reserve q.seq s) where
  running := h.running
  part := h.part
  counts := h.counts
  hold := h.hold
  link := busy_reserve h.link hq hstart
  access := Decidable.not_not.mp fun e => nomatch (executing_of_mayStart hstart).symm.trans (h.accessing.mpr e)
  sweep := h.sweep
  port := h.port

theorem complete_of_busy {s : State} (h : Busy s.link) (st : Status) (p : List Byte) :
    complete st p s = s.withLink (complete st p s).link ∧ (complete st p s).link.executing = none := by
  obtain ⟨q, rest, held, hq, -⟩ := h.head
  exact ⟨by simp [complete, hq], by simp [complete_executing, hq]⟩

theorem fit_complete {s : State} (h : TakenFit s) (st : Status) (p : List Byte) : Fit (complete st p s) := by
  obtain ⟨hlink, he⟩ := complete_of_busy h.link st p
  have hsound := linkSound_complete h.link st p
  generalize (complete st p s).link = l at hlink he
  rw [hlink] at hsound ⊢
  exact {
    running := h.running, part := h.part, counts := h.counts, hold := h.hold, sweep := h.sweep, link := hsound
    accessing := by simp [he, h.access]
    resetIdle := by simp [he]
    resetHeld := by simp [softResetWaits, he]
    past := fun _ => he
    begun := by simp [waitsForBlock, he] }

theorem steady_complete {s : State} (h : Taken s) (st : Status) (p : List Byte) : Steady (complete st p s) := by
  refine ⟨fit_complete h.toTakenFit st p, ?_⟩
  rw [(complete_of_busy h.link st p).1]
  exact h.port

/-- What a command may come to wait for (R160). -/
theorem steady_await {s : State} (h : Taken s) (hp : s.control.part ≠ .starting) {e : Executing} (ha : e ≠ .access)
    (hblock : e = .suspend ∨ e = .abort ∨ e = .softResetBlock → blockBegun s.sweep = true)
    (hidle : e = .softResetBlock → s.forward.path = .idle)
    (hheld : e = .boundary .softReset → isHeld s.forward.path = false) : Steady (await e s) where
  running := h.running
  part := h.part
  counts := h.counts
  hold := h.hold
  sweep := h.sweep
  port := h.port
  link := linkSound_await h.link e
  accessing := by simp [ha, h.access]
  resetIdle := by simpa using hidle
  resetHeld := by simpa [softResetWaits] using hheld
  past hs := absurd hs hp
  begun := by simpa [waitsForBlock] using hblock

end Sys2Proof.Proofs

namespace Sys2Proof.Proofs

open Sys2Proof.Machine

set_option Elab.async false

/-! ## The sweep engine's part of a sound state -/

/-- Sound but for the sweep engine: its state, record and block in hand are left out, and the arbiter knows nothing of
it. -/
structure SweepOut (s : State) : Prop extends FitButSweep s where
  port : PortBut .sweep s

theorem sweepOut_of_steady {s : State} (h : Steady s) (hs : Silent s .sweep) : SweepOut s :=
  ⟨h.toFitButSweep, portBut_of_silent h.port hs⟩

theorem SweepOut.alike {s t : State} (h : SweepOut s) (k : Alike s t) : SweepOut t :=
  ⟨h.toFitButSweep.alike k, h.port.transfer (k.othersKept .sweep)⟩

theorem othersKept_withSweep (s : State) (e : SweepEngine) : OthersKept .sweep s (s.withSweep e) where
  request := rfl
  arbiter := rfl
  claims r hr := by cases r with | sweep => exact absurd rfl hr | _ => rfl
  asking r hr := by cases r with | sweep => exact absurd rfl hr | _ => rfl

theorem FitButSweep.withSweep {s : State} (h : FitButSweep s) (e : SweepEngine) : FitButSweep (s.withSweep e) :=
  ⟨h.running, h.part, h.counts, h.hold, h.link, h.accessing, h.resetIdle, h.resetHeld, h.past⟩

theorem SweepOut.withSweep {s : State} (h : SweepOut s) (e : SweepEngine) : SweepOut (s.withSweep e) :=
  ⟨h.toFitButSweep.withSweep e, h.port.transfer (othersKept_withSweep s e)⟩

/-- With no block in hand the engine neither has an access outstanding nor waits for one. -/
theorem silent_of_no_block {s : State} (h : s.sweep.block = none) : Silent s .sweep :=
  ⟨by simp [claim, blockOutstanding, sweepOutstanding, h], by simp [asks, blockWaiting, h]⟩

theorem SweepOut.steady {s : State} (h : SweepOut s) (hsweep : SweepSound s) (hblock : s.sweep.block = none)
    (hw : ¬ waitsForBlock s.link) : Steady s :=
  ⟨⟨h.toFitButSweep, hsweep, fun e => absurd e hw⟩, h.port.sound (silent_of_no_block hblock)⟩

/-- A command that waits for the block in hand is in progress where the block has ended. -/
theorem SweepOut.taken {s : State} (h : SweepOut s) (hsweep : SweepSound s) (hblock : s.sweep.block = none)
    (hw : waitsForBlock s.link) : Taken s := by
  have he : s.link.executing ≠ none ∧ s.link.executing ≠ some .access := by
    rcases hw with hw | hw | hw <;> simp [hw]
  exact ⟨⟨h.running, h.part, h.counts, h.hold, busy_of_executing h.link he.1,
    Decidable.not_not.mp fun e => he.2 (h.accessing.mpr e), hsweep⟩, h.port.sound (silent_of_no_block hblock)⟩

/-! ### The end of a sweep -/

theorem sweepSound_endSweep {s : State} {o : SweepOutcome} (ho : o ≠ .pending)
    (hr : ∀ r ∈ s.sweep.record, r.done ≤ r.count) : SweepSound (endSweep o s) := by
  rw [sweepSound_iff, endSweep_sweep]
  refine ⟨fun _ r hmem => ?_, fun e => absurd rfl e, fun e => absurd rfl e, by simp, fun _ _ _ hb => nomatch hb⟩
  obtain ⟨x, hx, rfl⟩ := Option.mem_map.mp hmem
  exact ⟨ho, hr x hx⟩

theorem SweepOut.endSweep {s : State} (h : SweepOut s) (o : SweepOutcome) : SweepOut (endSweep o s) :=
  (h.withSweep _).alike (alike_raise _ _)

/-! ### The change of a soft reset -/

/-- The change of a soft reset at its boundary makes every unit sound anew (R174). -/
theorem steady_softResetChange {s : State} (hr : s.pins.reset = false) (hpart : PartSound s)
    (hp : s.control.part ≠ .starting) (hi : s.forward.path = .idle) (hport : PortBut .sweep s) (hl : Busy s.link)
    (ha : s.access = .idle) : Steady (softResetChange s) := by
  have hclear : s.control.clear = .complete := Decidable.not_not.mp fun e => hp (hpart.1.mpr e)
  have hwaits (r : Requester) : waits { s.arbiter with linkPassed := 0, sweepPassed := 0 } r = waits s.arbiter r := by
    cases r <;> rfl
  have hclaims : ∀ r, r ≠ .sweep → claim (changedBySoftReset s) r = claim s r := fun r hne => by
    cases r with | sweep => exact absurd rfl hne | _ => rfl
  have hport' : PortSound (changedBySoftReset s) := by
    refine PortBut.sound (x := .sweep) ⟨?_, fun r hne => ?_, fun r hne => ?_, hport.notOwner, hport.notWaiting,
      fun ho r => (hwaits r).trans (hport.free ho r)⟩ (silent_of_no_block rfl)
    · refine hport.request.trans ?_
      show _ = s.arbiter.owner.bind _
      cases ho : s.arbiter.owner with
      | none => rfl
      | some r => exact (hclaims r fun e => hport.notOwner (e ▸ ho)).symm
    · rw [hclaims r hne]; exact hport.owner r hne
    · refine (hwaits r).trans ((hport.waiting r hne).trans ?_)
      cases r with | sweep => exact absurd rfl hne | _ => rfl
  rw [softResetChange_eq]
  refine steady_complete ?_ _ _
  exact {
    running := hr
    part := ⟨by simp [changedBySoftReset, softResetControl, hclear], nofun, fun _ _ => nofun⟩
    counts := ⟨Nat.zero_le _, Nat.zero_le _, fun e => absurd rfl e, fun e => absurd rfl e⟩
    hold := by simp [changedBySoftReset, HoldSound, hi, isHeld, resetCapture]
    link := hl
    access := ha
    sweep := by simp [changedBySoftReset, SweepSound, resetSweep]
    port := hport' }

/-- A soft reset that waited for its block makes its change (R173). -/
theorem SweepOut.softReset {s : State} (h : SweepOut s) (he : s.link.executing = some .softResetBlock) :
    Steady (softResetChange s) :=
  steady_softResetChange h.running h.part (fun e => nomatch he.symm.trans (h.past e)) (h.resetIdle he) h.port
    (busy_of_executing h.link (by simp [he]))
    (Decidable.not_not.mp fun e => nomatch he.symm.trans (h.accessing.mpr e))

/-- A sweep that has ended answers the command that waits for its block (R141, R143, R148). -/
theorem steady_afterOwnEnd {s : State} (h : SweepOut s) (hsweep : SweepSound s) (hblock : s.sweep.block = none) :
    Steady (afterOwnEnd s) := by
  unfold afterOwnEnd
  split
  next he => exact steady_complete (h.taken hsweep hblock (.inl he)) _ _
  next he => exact steady_complete (h.taken hsweep hblock (.inr (.inl he))) _ _
  next he => exact h.softReset he
  next hs ha hb => exact h.steady hsweep hblock fun hw => hw.elim hs fun hw => hw.elim ha hb

/-! ### The next block -/

theorem storeReadRange_length (m : Store) (a n : Nat) : (storeReadRange m a n).length = n := by
  simp [storeReadRange]

/-- The next block of a RUNNING sweep in hand, waiting for its grant (R134). -/
theorem steady_presentBlock {s : State} (h : SweepOut s) (hw : ¬ waitsForBlock s.link) (hrun : s.sweep.state = .running)
    {r : SweepRecord} (hrec : s.sweep.record = some r) (hr : sweepInRange r) {words : List Word}
    (hwords : workCode r.work = workCode (.push 0 none) → words.length = blockLength r) :
    Steady (presentBlock r words s) := by
  refine steady_present (x := .sweep) ⟨(h.withSweep _).toFitButSweep, ?_, fun e => absurd e hw⟩ (h.withSweep _).port ?_ ?_
  · rw [sweepSound_iff, State.withSweep_sweep]
    simp only [EngineSound, hrun, hrec, Option.mem_some_iff, forall_eq']
    exact ⟨nofun, fun _ => rfl, fun _ => hr, by simp, rfl, rfl, hwords, by simp⟩
  · simp [claim, blockOutstanding, sweepOutstanding, hrec, sweepRequest]
  · simp [asks, blockWaiting]

/-- The engine takes its next block in hand, or meets a bad store word and fails (R134, R137). -/
theorem steady_takeBlock {s : State} (h : SweepOut s) (hw : ¬ waitsForBlock s.link) (hrun : s.sweep.state = .running)
    {r : SweepRecord} (hrec : s.sweep.record = some r) (hr : sweepInRange r) : Steady (takeBlock s) := by
  simp only [takeBlock, hrec]
  split
  next offset v hwork =>
    split
    next j hj =>
      refine ((((h.alike (alike_raise .storeParity s)).withSweep _).endSweep .failed)).steady ?_ rfl hw
      refine sweepSound_endSweep nofun fun x hx => ?_
      obtain rfl : { r with fail := some (.storeParity, r.start + r.done + j) } = x := by
        simpa [updateRecord, hrec] using hx
      exact hr.1.le
    next => exact steady_presentBlock h hw hrun hrec hr fun _ => by simp [storeReadRange_length]
  next hwork =>
    refine steady_presentBlock h hw hrun hrec hr fun hcode => ?_
    cases hk : r.work with
    | push o v => exact absurd hk (hwork o v)
    | _ => simp [hk, workCode] at hcode

/-! ### The completion of a block -/

/-- A record whose block has just been counted. -/
abbrev BlockCounted (r : SweepRecord) : Prop :=
  r.done ≤ r.count ∧ r.start + r.count ≤ Config.spaceWords ∧ r.outcome = .pending ∧ r.fail = none

theorem steady_blockCompleted {s : State} (h : SweepOut s) (hrun : s.sweep.state = .running) {r : SweepRecord}
    (hrec : s.sweep.record = some r) (hr : BlockCounted r) : Steady (blockCompleted s) := by
  obtain ⟨hdone, hspace, hout, hfail⟩ := hr
  have bounds : ∀ x ∈ s.sweep.record, x.done ≤ x.count := fun x hx => by
    obtain rfl : r = x := by simpa [hrec] using hx
    exact hdone
  have ended (o : SweepOutcome) (ho : o ≠ .pending) := sweepSound_endSweep (s := s) ho bounds
  simp only [blockCompleted, hrec]
  split
  next => exact steady_afterOwnEnd (h.endSweep .done) (ended .done nofun) rfl
  next hmore =>
    have hrange : sweepInRange r := ⟨Nat.lt_of_not_le hmore, hspace, hout, hfail⟩
    split
    next he =>
      refine steady_complete
        ((h.withSweep { state := .suspended, record := some r, block := none }).taken ?_ rfl (.inl he)) _ _
      rw [sweepSound_iff, State.withSweep_sweep]
      simp only [EngineSound, Option.mem_some_iff, forall_eq']
      exact ⟨nofun, fun _ => rfl, fun _ => hrange, by simp, fun _ hb => nomatch hb⟩
    next he => exact steady_complete ((h.endSweep .aborted).taken (ended .aborted nofun) rfl (.inr (.inl he))) _ _
    next he => exact h.softReset he
    next hs ha hb => exact steady_takeBlock h (fun hw => hw.elim hs fun hw => hw.elim ha hb) hrun hrec hrange

/-- A record that differs in its flags from one whose block has been counted is another one. -/
theorem blockCounted_of_plain {r r' : SweepRecord} (h : plainRecord r' = plainRecord r) (hr : BlockCounted r) :
    BlockCounted r' := by
  rw [plainRecord, plainRecord, SweepRecord.mk.injEq] at h
  obtain ⟨hstart, hcount, hdone, hout, hfail, -, -⟩ := h
  rw [BlockCounted, hcount, hdone, hstart, hout, hfail]
  exact hr

theorem GrantMoves.blockCounted {s t : State} (k : GrantMoves s t) {r : SweepRecord} (hrec : s.sweep.record = some r)
    (hr : BlockCounted r) : ∃ r', t.sweep.record = some r' ∧ BlockCounted r' := by
  have hmap := k.record
  rw [hrec] at hmap
  cases ht : t.sweep.record with
  | none => simp [ht] at hmap
  | some r' => exact ⟨r', rfl, blockCounted_of_plain (by simpa [ht] using hmap) hr⟩

/-- The port freed by the engine, whose record may have changed with the block's end. -/
theorem sweepOut_freePort {s : State} (h : FitButSweep s) (hport : PortHeldBy .sweep s)
    (hrec : s.sweep.record.isSome = true) (b : Bool) : SweepOut (freePort b s) :=
  ⟨h.freePort b, freePort_portBut hport (fun _ => hrec) b⟩

/-! ### The answer to a block -/

/-- A sound RUNNING sweep with an access outstanding. -/
structure BlockOut (r : SweepRecord) (b : Block) (s : State) : Prop extends Steady s where
  record : s.sweep.record = some r
  block : s.sweep.block = some b
  phase : b.phase = .access ∨ b.phase = .back

theorem blockOut_of_outstanding {s : State} (h : Steady s) {r : SweepRecord} {b : Block} {q : BusRequest}
    (hq : sweepOutstanding s.sweep = some (r, b, q)) : BlockOut r b s := by
  unfold sweepOutstanding at hq
  split at hq
  next r' b' hr hb =>
    obtain ⟨x, hx, he⟩ := Option.map_eq_some_iff.mp hq
    cases he
    refine ⟨h, hr, hb, ?_⟩
    unfold sweepRequest at hx
    split at hx
    next hp => exact .inl hp
    next hp => exact .inr hp
    next => cases hx
  next => cases hq

namespace BlockOut

variable {s : State} {r : SweepRecord} {b : Block} (h : BlockOut r b s)
include h

theorem heldBy : PortHeldBy .sweep s := by
  refine portHeldBy_of_owner h.port (owner_of_claim h.port ?_)
  rcases h.phase with hp | hp <;> simp [claim, blockOutstanding, sweepOutstanding, h.record, h.block, sweepRequest, hp]

theorem running_state : s.sweep.state = .running := h.sweep.2.2.2.1.mpr (by simp [h.block])

theorem recordInRange : sweepInRange r := by
  obtain ⟨-, -, hrange, -, -⟩ := h.sweep
  exact hrange (by rw [h.running_state]; decide) r h.record

theorem inRange : blockInRange r b := by
  obtain ⟨-, -, -, -, hblock⟩ := h.sweep
  exact hblock r h.record b h.block

theorem counted : BlockCounted (countDone b r) := by
  obtain ⟨hdone, hspace, hout, hfail⟩ := h.recordInRange
  obtain ⟨-, hcount, -⟩ := h.inRange
  refine ⟨?_, hspace, hout, hfail⟩
  have : b.count ≤ r.count - r.done := hcount ▸ Nat.min_le_right _ _
  simp only [countDone]
  omega

/-- A block that has been counted completes, whatever it wrote to the store (R134). -/
theorem completed {f : SweepRecord → SweepRecord} (hf : BlockCounted (f r)) (m : Store) :
    Steady (blockCompleted (freePort false (updateRecord f (s.withStore m)))) := by
  have hrec : (updateRecord f (s.withStore m)).sweep.record = some (f r) := by simp [updateRecord, h.record]
  have kept : OthersKept .sweep s (updateRecord f (s.withStore m)) := ⟨rfl, rfl,
    fun x hx => by cases x with | sweep => exact absurd rfl hx | _ => rfl,
    fun x hx => by cases x with | sweep => exact absurd rfl hx | _ => rfl⟩
  have moves := freePort_moves false (updateRecord f (s.withStore m))
  obtain ⟨r', hrec', hr'⟩ := moves.blockCounted hrec hf
  refine steady_blockCompleted (sweepOut_freePort ?_ (h.heldBy.transfer kept) (by simp [hrec]) false)
    (moves.state.trans h.running_state) hrec' hr'
  exact (h.toFitButSweep.alike (alike_withStore s m)).withSweep _

theorem withStore (m : Store) : BlockOut r b (s.withStore m) :=
  ⟨h.toSteady.alike (alike_withStore s m), h.record, h.block, h.phase⟩

theorem foldBlock_counted (data : List Word) : BlockCounted (foldBlock b data r) := by
  unfold foldBlock
  split
  · exact h.counted
  · exact ⟨h.recordInRange.1.le, h.recordInRange.2⟩

theorem verifyBlock_counted (data : List Word) : BlockCounted (verifyBlock b data r) := by
  unfold verifyBlock
  split
  · exact h.counted
  · exact ⟨h.recordInRange.1.le, h.recordInRange.2⟩

/-- A PUSH block written with verify on waits for its read back (R138). -/
theorem readBack {o : Nat} {v : Readback} (hwork : r.work = .push o (some v)) :
    Steady (present .sweep (freePort false
      (s.withSweep { s.sweep with block := some { b with phase := .backWaiting } }))) := by
  have hfit : Fit (s.withSweep { s.sweep with block := some { b with phase := .backWaiting } }) := by
    refine ⟨h.toFitButSweep.withSweep _, ?_, fun _ => rfl⟩
    obtain ⟨hidle, hsome, hrange, hrun, -⟩ := h.sweep
    refine ⟨hidle, hsome, hrange, ⟨fun _ => rfl, fun _ => h.running_state⟩, fun x hx y hy => ?_⟩
    obtain rfl : r = x := by simpa [h.record] using hx
    obtain rfl : { b with phase := .backWaiting } = y := by simpa using hy
    obtain ⟨haddr, hcount, hwords, -⟩ := h.inRange
    exact ⟨haddr, hcount, hwords, fun _ => by simp [hwork, workVerify]⟩
  have hheld := h.heldBy.transfer (othersKept_withSweep s { s.sweep with block := some { b with phase := .backWaiting } })
  have hplain : plainSweep (freePort false (s.withSweep
      { s.sweep with block := some { b with phase := .backWaiting } })).sweep =
        plainSweep { s.sweep with block := some { b with phase := .backWaiting } } := by
    rcases freePort_cases hheld false with ⟨-, he⟩ | ⟨x, hx, -, he⟩
    · rw [he]; rfl
    · rw [he, grant_sweep_plain hx]; rfl
  refine steady_present (hfit.freePort false) (freePort_portBut hheld (record_of_block hfit.sweep) false) ?_ ?_
  · rw [claim, blockOutstanding_congr hplain]
    simp [blockOutstanding, sweepOutstanding, h.record, sweepRequest]
  · rw [asks, blockWaiting, block_of_plain hplain]
    rfl

theorem steady_blockAnswered (data : List Word) : Steady (blockAnswered r b data s) := by
  unfold blockAnswered
  split
  next => exact h.completed (h.foldBlock_counted data) s.store
  next => exact h.completed h.counted _
  next => exact h.completed (h.verifyBlock_counted data) s.store
  next => exact h.completed h.counted s.store
  next hwork _ => exact h.readBack hwork

/-- A block access that fails ends the sweep (R139). -/
theorem steady_blockFailed (a : Bool) (c : FailCause) : Steady (blockFailed a c b s) := by
  have hout := sweepOut_freePort h.toFitButSweep h.heldBy (by simp [h.record]) a
  have moves := freePort_moves a s
  obtain ⟨r', hrec', hr'⟩ := moves.blockCounted h.record ⟨h.recordInRange.1.le, h.recordInRange.2⟩
  refine steady_afterOwnEnd ((hout.withSweep _).endSweep .failed) (sweepSound_endSweep nofun fun x hx => ?_) rfl
  obtain rfl : { r' with fail := some (c, b.addr) } = x := by simpa [updateRecord, hrec'] using hx
  exact hr'.1

theorem raised (c : Cause) : BlockOut r b (raise c s) :=
  ⟨h.toSteady.alike (alike_raise c s), h.record, h.block, h.phase⟩

end BlockOut

theorem steady_sweepAnswered {s : State} (h : Steady s) {r : SweepRecord} {b : Block} {q : BusRequest}
    (hq : sweepOutstanding s.sweep = some (r, b, q)) (resp : BusResponse) : Steady (sweepAnswered r b resp s) := by
  have hout := blockOut_of_outstanding h hq
  cases resp with
  | error => exact (hout.raised .downError).steady_blockFailed _ _
  | okay data => exact hout.steady_blockAnswered data

theorem steady_sweepTimedOut {s : State} (h : Steady s) {r : SweepRecord} {b : Block} {q : BusRequest}
    (hq : sweepOutstanding s.sweep = some (r, b, q)) : Steady (sweepTimedOut b s) :=
  ((blockOut_of_outstanding h hq).raised .downTimeout).steady_blockFailed _ _

end Sys2Proof.Proofs

namespace Sys2Proof.Proofs

open Sys2Proof.Machine

set_option Elab.async false

/-! ## The forwarding path's part of a sound state -/

/-- A request may be answered or held: the path is left out, and the arbiter knows nothing of it; no offer is held. -/
structure Answerable (s : State) : Prop where
  running : s.pins.reset = false
  part : PartSound s
  counts : CountsSound s
  notHeld : s.capture.held = none
  link : LinkSound s
  accessing : s.link.executing = some .access ↔ s.access ≠ .idle
  begun : waitsForBlock s.link → blockBegun s.sweep = true
  noReset : s.link.executing ≠ some .softResetBlock
  past : s.control.part = .starting → s.link.executing = none
  sweep : SweepSound s
  port : PortBut .forward s

theorem Answerable.alike {s t : State} (h : Answerable s) (k : Alike s t) : Answerable t where
  running := k.reset.trans h.running
  part := k.partSound h.part
  counts := k.countsSound h.counts
  notHeld := by simpa [h.notHeld] using k.held
  link := k.linkSound h.link
  accessing := by rw [k.link, k.access]; exact h.accessing
  begun := by rw [k.link, k.blockBegun_eq]; exact h.begun
  noReset := by rw [k.link]; exact h.noReset
  past := by rw [k.link, k.part]; exact h.past
  sweep := k.sweepSound h.sweep
  port := h.port.transfer (k.othersKept .forward)

/-- All that the port knows of is as it was but for the forwarding path. -/
theorem othersKept_forward {s t : State} (hport : t.port = s.port) (harbiter : t.arbiter = s.arbiter)
    (haccess : t.access = s.access) (hsweep : t.sweep = s.sweep) : OthersKept .forward s t where
  request := by rw [hport]
  arbiter := harbiter
  claims r hr := by
    cases r with
    | forward => exact absurd rfl hr
    | link => rw [claim, claim, haccess]
    | sweep => rw [claim, claim, hsweep]
  asking r hr := by
    cases r with
    | forward => exact absurd rfl hr
    | link => rw [asks, asks, haccess]
    | sweep => rw [asks, asks, hsweep]

/-! ### Responses -/

/-- A state that is sound while FBYP is released is sound once FBYP has been acted on (R30, R172). -/
theorem steady_sampleFbyp {s : State} (h : Steady (s.withPins { s.pins with fbyp := false })) :
    Steady (sampleFbyp s) := by
  obtain ⟨hclear, hforced, -⟩ := h.part
  unfold sampleFbyp
  split
  next hact =>
    have hpart : s.control.part = .active := by simpa using (Bool.and_eq_true_iff.mp hact).2
    have hdone : s.control.clear = .complete := by simpa [hpart] using hclear
    exact {
      running := h.running, counts := h.counts, hold := h.hold, link := h.link, accessing := h.accessing
      resetIdle := h.resetIdle, resetHeld := h.resetHeld, sweep := h.sweep, begun := h.begun, port := h.port
      part := ⟨⟨nofun, fun e => absurd hdone e⟩, fun _ => rfl, fun _ _ => nofun⟩
      past := nofun }
  next hact =>
    exact {
      running := h.running, counts := h.counts, hold := h.hold, link := h.link, accessing := h.accessing
      resetIdle := h.resetIdle, resetHeld := h.resetHeld, sweep := h.sweep, begun := h.begun, port := h.port
      part := ⟨hclear, hforced, fun hf _ ha => hact (by simp [hf, ha])⟩
      past := h.past }

/-- A response leaves the path IDLE (R39). -/
theorem steady_giveResponse {s : State} (h : Answerable s) (r : BusRequest) (resp : BusResponse) :
    Steady (giveResponse r resp s) := by
  obtain ⟨hclear, hforced, -⟩ := h.part
  exact steady_sampleFbyp {
    running := h.running, counts := h.counts, link := h.link, accessing := h.accessing, begun := h.begun
    past := h.past, sweep := h.sweep
    part := ⟨hclear, hforced, nofun⟩
    hold := by simp [HoldSound, isHeld, h.notHeld]
    resetIdle := fun _ => rfl
    resetHeld := fun _ => rfl
    port := PortBut.sound (by exact h.port.transfer (othersKept_forward rfl rfl rfl rfl)) ⟨rfl, rfl⟩ }

/-- A path that is not HELD is one whose request may be answered. -/
theorem answerable_of_fit {s : State} (h : Fit s) (hport : PortBut .forward s) (hheld : isHeld s.forward.path = false)
    (hreset : s.link.executing ≠ some .softResetBlock) : Answerable s where
  running := h.running
  part := h.part
  counts := h.counts
  notHeld := by simpa [HoldSound, hheld] using h.hold
  link := h.link
  accessing := h.accessing
  begun := h.begun
  noReset := hreset
  past := h.past
  sweep := h.sweep
  port := hport

/-! ### Holds -/

/-- A held path makes no request. -/
theorem silent_of_held {s : State} {x : HeldRequest} (h : s.forward.path = .held x) : Silent s .forward :=
  ⟨by simp [claim, h, forwardRequest], by simp [asks, h, pathWaiting]⟩

/-- With its offer taken away, the held request may be answered. -/
theorem answerable_clearHeld {s : State} (h : Steady s) {x : HeldRequest} (hx : s.forward.path = .held x) :
    Answerable (clearHeld s) where
  running := h.running
  part := h.part
  counts := h.counts
  notHeld := rfl
  link := h.link
  accessing := h.accessing
  begun := h.begun
  noReset e := nomatch hx.symm.trans (h.resetIdle e)
  past := h.past
  sweep := h.sweep
  port := portBut_of_silent h.port (silent_of_held hx)

theorem steady_endHoldByDrop {s : State} (h : Steady s) : Steady (endHoldByDrop s) := by
  unfold endHoldByDrop
  split
  next hx => exact steady_giveResponse ((answerable_clearHeld h hx).alike (alike_dropRecord _)) _ _
  next => exact h

theorem steady_endHoldBySpace {s : State} (h : Steady s) : Steady (endHoldBySpace s) := by
  unfold endHoldBySpace
  split
  next hx _ => exact steady_giveResponse ((answerable_clearHeld h hx).alike (alike_appendRecord _ _)) _ _
  next => exact h

/-- A hold begins where no SOFT_RESET waits (R99). -/
theorem steady_beginHold {s : State} (h : Answerable s) (hw : softResetWaits s = false) (r : BusRequest)
    (resp : BusResponse) (o : CaptureOffer) : Steady (beginHold r resp o s) where
  running := h.running
  part := ⟨h.part.1, h.part.2.1, nofun⟩
  counts := h.counts
  hold := rfl
  link := h.link
  accessing := h.accessing
  begun := h.begun
  resetIdle e := absurd e h.noReset
  resetHeld e := absurd e (by rw [show softResetWaits (beginHold r resp o s) = softResetWaits s from rfl, hw]; nofun)
  past := h.past
  sweep := h.sweep
  port := PortBut.sound (by exact h.port.transfer (othersKept_forward rfl rfl rfl rfl)) ⟨rfl, rfl⟩

/-- A hold that a waiting SOFT_RESET meets ends at once (R173). -/
theorem steady_metHold {s : State} (h : Answerable s) (r : BusRequest) (resp : BusResponse) (o : CaptureOffer) :
    Steady (endHoldByDrop (beginHold r resp o s)) := by
  have hans : Answerable (clearHeld (beginHold r resp o s)) := {
    running := h.running, counts := h.counts, link := h.link, accessing := h.accessing, begun := h.begun
    noReset := h.noReset, past := h.past, sweep := h.sweep
    part := ⟨h.part.1, h.part.2.1, nofun⟩
    notHeld := rfl
    port := h.port.transfer (othersKept_forward rfl rfl rfl rfl) }
  exact steady_giveResponse (hans.alike (alike_dropRecord _)) r resp

theorem steady_takeOffer {s : State} (h : Answerable s) (r : BusRequest) (resp : BusResponse) (o : CaptureOffer) :
    Steady (takeOffer r resp o s) := by
  unfold takeOffer
  split
  · exact steady_giveResponse (h.alike (alike_appendRecord o s)) r resp
  · split
    · exact steady_giveResponse (h.alike (alike_dropRecord s)) r resp
    · split
      next => exact steady_metHold h r resp o
      next hw => exact steady_beginHold h (by simpa using hw) r resp o

theorem steady_settle {s : State} (h : Answerable s) (r : BusRequest) (d : Decided) (o : RequestOutcome)
    (resp : BusResponse) : Steady (settle r d o resp s) := by
  have units : Answerable (settleUnits r d o s) := h.alike (alike_settleUnits r d o s)
  unfold settle
  split
  · exact steady_giveResponse units r resp
  · exact steady_takeOffer units r resp _

/-! ### Acceptance -/

theorem silent_of_idle {s : State} (h : s.forward.path = .idle) : Silent s .forward :=
  ⟨by simp [claim, h, forwardRequest], by simp [asks, h, pathWaiting]⟩

/-- A request taken at an IDLE path asks for the port (R33, R34, R40). -/
theorem steady_requestPort {s : State} (h : Steady s) (hi : s.forward.path = .idle)
    (hreset : s.link.executing ≠ some .softResetBlock) (f : Flight) : Steady (requestPort f s) := by
  have hheld : s.capture.held = none := by simpa [HoldSound, hi, isHeld] using h.hold
  refine steady_present (x := .forward) ?_
    ((portBut_of_silent h.port (silent_of_idle hi)).transfer (othersKept_forward rfl rfl rfl rfl)) rfl rfl
  exact {
    running := h.running, counts := h.counts, link := h.link, accessing := h.accessing, begun := h.begun
    past := h.past, sweep := h.sweep
    part := ⟨h.part.1, h.part.2.1, nofun⟩
    hold := by simp [HoldSound, isHeld, hheld]
    resetIdle := fun e => absurd e hreset
    resetHeld := fun _ => rfl }

/-- The course of an accepted request: a response, a settle, or a request for the port (R28, R33, R34, R40, R41). -/
theorem steady_routeRequest {s : State} (h : Steady s) (hi : s.forward.path = .idle)
    (hreset : s.link.executing ≠ some .softResetBlock) (r : BusRequest) : Steady (routeRequest r s) := by
  have hans : Answerable s :=
    answerable_of_fit h.toFit (portBut_of_silent h.port (silent_of_idle hi)) (by rw [hi]; rfl) hreset
  have asked (f : Flight) : Steady (requestPort f s) := steady_requestPort h hi hreset f
  have settled (r : BusRequest) (d : Decided) (o : RequestOutcome) (resp : BusResponse) : Steady (settle r d o resp s) :=
    steady_settle hans r d o resp
  have read (d : Decided) : Steady (courseRead r d s) := by
    unfold courseRead courseFetched
    split
    · exact settled _ _ _ _
    · split
      · exact settled _ _ _ _
      · split
        · exact asked _
        · exact settled _ _ _ _
  have write (d : Decided) : Steady (courseWrite r d s) := by
    unfold courseWrite
    split
    · exact settled _ _ _ _
    · split
      · exact asked _
      · exact settled _ _ _ _
  unfold routeRequest
  split
  · unfold governActive
    split
    · exact steady_giveResponse (hans.alike (alike_raise .malformed s)) r .error
    · split
      · exact read _
      · exact write _
  · exact asked _

theorem alike_withForward (s : State) {f : Forwarding} (h : f.path = s.forward.path) : Alike s (s.withForward f) :=
  ⟨rfl, rfl, rfl, rfl, rfl, h, rfl, rfl, rfl, rfl, rfl, rfl⟩

/-- At a sound IDLE path FBYP has nothing to act on. -/
theorem sampleFbyp_of_idle {s : State} (h : PartSound s) (hi : s.forward.path = .idle) : sampleFbyp s = s := by
  obtain ⟨-, -, hfbyp⟩ := h
  cases hf : s.pins.fbyp with
  | false => exact sampleFbyp_of_released hf
  | true => exact sampleFbyp_of_not_active (hfbyp hf hi)

theorem steady_presentRequest {s : State} (h : Steady s) (r : BusRequest) : Steady (presentRequest r s) := by
  unfold presentRequest
  split
  next hacc =>
    simp only [mayAccept, Bool.and_eq_true, beq_iff_eq, Bool.not_eq_true'] at hacc
    obtain ⟨⟨-, hi⟩, hw⟩ := hacc
    have hreset : s.link.executing ≠ some .softResetBlock := fun e => by simp [boundaryWaits, e] at hw
    have hs : Steady (s.withForward { s.forward with presented := none, given := none }) :=
      h.alike (alike_withForward s rfl)
    unfold acceptRequest
    rw [sampleFbyp_of_idle hs.part hi]
    exact steady_routeRequest hs hi hreset _
  next => exact h.alike (alike_withForward s rfl)

/-! ### The end of a downstream request -/

/-- The port freed by the forwarding path, whose request may now be answered (R35, R36). -/
theorem answerable_freePort {s : State} (h : Steady s) {f : Flight} (hf : s.forward.path = .outstanding f) (b : Bool) :
    Answerable (freePort b s) := by
  have hheld := portHeldBy_of_owner h.port (owner_of_claim (x := .forward) h.port (by simp [claim, hf, forwardRequest]))
  have hpath : (freePort b s).forward = s.forward := freePort_forward (by simp [hf]) b
  refine answerable_of_fit (h.toFit.freePort b) (freePort_portBut hheld (record_of_block h.sweep) b) ?_ ?_
  · rw [hpath, hf]; rfl
  · rw [freePort_link]; exact fun e => nomatch hf.symm.trans (h.resetIdle e)

theorem steady_hostAnswered {s : State} (h : Steady s) {f : Flight} (hf : s.forward.path = .outstanding f)
    (resp : BusResponse) : Steady (hostAnswered f resp s) := by
  have failed := answerable_freePort (h.alike (alike_raise .downError s)) hf false
  have answered := answerable_freePort h hf false
  unfold hostAnswered
  split
  · exact steady_giveResponse failed _ _
  · exact steady_settle failed _ _ _ _
  · exact steady_giveResponse answered _ _
  · exact steady_settle answered _ _ _ _

theorem steady_hostTimedOut {s : State} (h : Steady s) {f : Flight} (hf : s.forward.path = .outstanding f) :
    Steady (hostTimedOut f s) := by
  have failed := answerable_freePort (h.alike (alike_raise .downTimeout s)) hf true
  unfold hostTimedOut
  split
  · exact steady_giveResponse failed _ _
  · exact steady_settle failed _ _ _ _

/-! ## The link access unit's part of a sound state -/

/-- All that the port knows of is as it was but for the link access unit. -/
theorem othersKept_link {s t : State} (hport : t.port = s.port) (harbiter : t.arbiter = s.arbiter)
    (hforward : t.forward = s.forward) (hsweep : t.sweep = s.sweep) : OthersKept .link s t where
  request := by rw [hport]
  arbiter := harbiter
  claims r hr := by
    cases r with
    | forward => rw [claim, claim, hforward]
    | link => exact absurd rfl hr
    | sweep => rw [claim, claim, hsweep]
  asking r hr := by
    cases r with
    | forward => rw [asks, asks, hforward]
    | link => exact absurd rfl hr
    | sweep => rw [asks, asks, hsweep]

theorem silent_of_access_idle {s : State} (h : s.access = .idle) : Silent s .link :=
  ⟨by simp [claim, h, accessRequest], by simp [asks, h, accessWaiting]⟩

/-- A memory command presents its access (R120). -/
theorem steady_beginAccess {s : State} (h : Taken s) (hp : s.control.part ≠ .starting) (job : AccessJob) :
    Steady (beginAccess job s) := by
  have hport : PortBut .link s := portBut_of_silent h.port (silent_of_access_idle h.access)
  refine steady_present (x := .link) ?_ (hport.transfer (othersKept_link rfl rfl rfl rfl)) rfl rfl
  exact {
    running := h.running, part := h.part, counts := h.counts, hold := h.hold, sweep := h.sweep
    link := linkSound_await h.link .access
    accessing := ⟨fun _ => nofun, fun _ => rfl⟩
    resetIdle := nofun
    resetHeld := nofun
    past := fun e => absurd e hp
    begun := by simp [waitsForBlock] }

theorem portHeldBy_link {s : State} (h : Steady s) {job : AccessJob} (hjob : s.access = .outstanding job) :
    PortHeldBy .link s :=
  portHeldBy_of_owner h.port (owner_of_claim (x := .link) h.port (by simp [claim, hjob, accessRequest]))

/-- An access that has ended answers its command and frees the port (R117, R120). -/
theorem steady_finishAccess {s : State} (h : Steady s) {job : AccessJob} (hjob : s.access = .outstanding job) (b : Bool)
    (st : Status) (p : List Byte) : Steady (finishAccess b st p s) := by
  have he : s.link.executing = some .access := h.accessing.mpr (by simp [hjob])
  have htaken : TakenFit (s.withAccess .idle) :=
    ⟨h.running, h.part, h.counts, h.hold, busy_of_executing h.link (by simp [he]), rfl, h.sweep⟩
  have hfit := fit_complete htaken st p
  have kept : OthersKept .link s (complete st p (s.withAccess .idle)) :=
    othersKept_link (by simp) (by simp) (by simp) (by simp)
  have hheld := (portHeldBy_link h hjob).transfer kept
  have hidle : (freePort b (complete st p (s.withAccess .idle))).access = .idle :=
    (freePort_moves _ _).access_idle_iff.mpr (by rw [complete_access]; rfl)
  exact ⟨hfit.freePort b, (freePort_portBut hheld (record_of_block hfit.sweep) b).sound (silent_of_access_idle hidle)⟩

theorem alike_issueReported (r : BusRequest) (s : State) : Alike (issue r s) (issueReported r s) := by
  cases r with
  | read a n => exact .refl _
  | write a ws =>
    simp only [issueReported, reportWrite]
    split
    · split
      · exact alike_updateRecord plainRecord_disturbed _
      · exact .refl _
    · exact .refl _

/-- WRITE_VERIFY goes on to its next step under the same grant (R117, R126). -/
theorem steady_nextVerifyStep {s : State} (h : Steady s) {job : AccessJob} (hjob : s.access = .outstanding job)
    (next : AccessJob) : Steady (nextVerifyStep next s) := by
  have howner : s.arbiter.owner = some .link :=
    owner_of_claim (x := .link) h.port (by simp [claim, hjob, accessRequest])
  obtain ⟨-, hclaim, hwait, -⟩ := (portSound_iff s).mp h.port
  refine Steady.alike (s := issue (jobRequest next)
    ((s.withPort { outstanding := none, aborted := false }).withAccess (.outstanding next))) ?_ (alike_issueReported _ _)
  refine ⟨⟨⟨h.running, h.part, h.counts, h.hold, h.link, ?_, h.resetIdle, h.resetHeld, h.past⟩, h.sweep, h.begun⟩, ?_⟩
  · simpa [hjob] using h.accessing
  · refine (portSound_iff _).mpr ⟨?_, fun r => ?_, fun r => ?_, fun e => nomatch howner.symm.trans e⟩
    · simp [howner, claim, accessRequest]
    · cases r with
      | link => simp [howner, claim, accessRequest]
      | forward => exact hclaim .forward
      | sweep => exact hclaim .sweep
    · cases r with
      | link => exact (hwait .link).trans (by simp [asks, hjob, accessWaiting])
      | forward => exact hwait .forward
      | sweep => exact hwait .sweep

theorem steady_linkAnswered {s : State} (h : Steady s) {job : AccessJob} (hjob : s.access = .outstanding job)
    (data : List Word) : Steady (linkAnswered job data s) := by
  unfold linkAnswered
  split
  · exact steady_finishAccess h hjob _ _ _
  · exact steady_finishAccess h hjob _ _ _
  · exact steady_finishAccess h hjob _ _ _
  · exact steady_nextVerifyStep h hjob _
  · exact steady_nextVerifyStep h hjob _
  · exact steady_finishAccess h hjob _ _ _

theorem steady_linkAccessAnswered {s : State} (h : Steady s) {job : AccessJob} (hjob : s.access = .outstanding job)
    (resp : BusResponse) : Steady (linkAccessAnswered job resp s) := by
  cases resp with
  | error => exact steady_finishAccess (h.alike (alike_raise .downError s)) hjob _ _ _
  | okay data => exact steady_linkAnswered h hjob data

theorem steady_linkTimedOut {s : State} (h : Steady s) {job : AccessJob} (hjob : s.access = .outstanding job) :
    Steady (linkTimedOut job s) := steady_finishAccess (h.alike (alike_raise .downTimeout s)) hjob _ _ _

end Sys2Proof.Proofs

namespace Sys2Proof.Proofs

open Sys2Proof.Machine

set_option Elab.async false

/-! ## Commands at their start -/

theorem no_block_of_state {s : State} (h : SweepSound s) (hs : s.sweep.state ≠ .running) : s.sweep.block = none := by
  obtain ⟨-, -, -, hrun, -⟩ := h
  rw [← Option.not_isSome_iff_eq_none, ← hrun]
  exact hs

theorem record_bounds {s : State} (h : SweepSound s) : ∀ r ∈ s.sweep.record, r.done ≤ r.count := by
  obtain ⟨hidle, -, hrange, -⟩ := h
  intro r hr
  by_cases hs : s.sweep.state = .idle
  · exact (hidle hs r hr).2
  · exact (hrange hs r hr).1.le

theorem Taken.withControl {s : State} (h : Taken s) {c : Control} (hpart : PartSound (s.withControl c)) :
    Taken (s.withControl c) := ⟨⟨h.running, hpart, h.counts, h.hold, h.link, h.access, h.sweep⟩, h.port⟩

/-- Run on a state with its command in progress, the meaning answers or comes to wait in a steady state. -/
def Answers (f : State → State) : Prop := ∀ ⦃s⦄, Taken s → Steady (f s)

theorem unlessStarting_answers {f : State → State} (hf : ∀ ⦃s⦄, Taken s → s.control.part ≠ .starting → Steady (f s)) :
    Answers (unlessStarting f) := by
  intro s h
  unfold unlessStarting
  split
  next => exact steady_complete h _ _
  next hp => exact hf h hp

theorem onSlot_answers (slot : Nat) {f : State → State}
    (hf : ∀ ⦃s⦄, Taken s → s.control.part ≠ .starting → Steady (f s)) : Answers (onSlot slot f) := by
  refine unlessStarting_answers fun s h hp => ?_
  split
  · exact hf h hp
  · exact steady_complete h _ _

theorem checkStart_answers (inRange : Bool) {f : State → State}
    (hf : ∀ ⦃s⦄, Taken s → s.sweep.state = .idle → inRange = true → Steady (f s)) : Answers (checkStart inRange f) := by
  refine unlessStarting_answers fun s h _ => ?_
  split
  next => exact steady_complete h _ _
  next hi =>
    split
    next hr => exact hf h (Decidable.not_not.mp hi) hr
    next => exact steady_complete h _ _

/-! ### Sweeps -/

/-- A completed command's state with the engine made RUNNING takes its first, or next, block (R130, R142). -/
theorem steady_runSweep {s : State} (h : Taken s) (hblock : s.sweep.block = none) {r : SweepRecord}
    (hr : sweepInRange r) :
    Steady (takeBlock ((complete .ok [] s).withSweep { state := .running, record := some r, block := none })) := by
  have hs := steady_complete h .ok []
  have hsilent : Silent (complete .ok [] s) .sweep := silent_of_no_block (by rw [complete_sweep]; exact hblock)
  refine steady_takeBlock ((sweepOut_of_steady hs hsilent).withSweep _) ?_ rfl rfl hr
  rw [State.withSweep_link, waitsForBlock, (complete_of_busy h.link .ok []).2]
  simp

theorem steady_startSweep {s : State} (h : Taken s) (hi : s.sweep.state = .idle) {addr count most : Nat}
    (hrange : sweepRange addr count most = true) (work : SweepWork) :
    Steady (startSweep (startedRecord addr count work) s) := by
  simp only [sweepRange, Bool.and_eq_true, decide_eq_true_eq] at hrange
  obtain ⟨⟨⟨-, hone⟩, -⟩, hspace⟩ := hrange
  rw [startSweep, complete_withSweep]
  exact steady_runSweep h (no_block_of_state h.sweep (by rw [hi]; decide)) ⟨hone, hspace, rfl, rfl⟩

theorem claim_of_not_begun {s : State} (h : blockBegun s.sweep = false) : claim s .sweep = none := by
  simp only [claim, blockOutstanding, sweepOutstanding]
  split
  next r b hr hb =>
    have hp : b.phase = .waiting := by simpa [blockBegun, hb] using h
    simp [sweepRequest, hp]
  next => rfl

/-- A block that has not begun leaves the waiting set (R134). -/
theorem portBut_withdrawBlock {s : State} (h : PortSound s) (hb : blockBegun s.sweep = false) :
    PortBut .sweep (withdrawBlock s) := by
  obtain ⟨hreq, howner, hwait, hfree⟩ := (portSound_iff s).mp h
  have hclaim (r : Requester) (hr : r ≠ .sweep) : claim (withdrawBlock s) r = claim s r := by
    cases r with | sweep => exact absurd rfl hr | _ => rfl
  have hasks (r : Requester) (hr : r ≠ .sweep) : asks (withdrawBlock s) r = asks s r := by
    cases r with | sweep => exact absurd rfl hr | _ => rfl
  have hwaits (r : Requester) (hr : r ≠ .sweep) : waits (withdrawBlock s).arbiter r = waits s.arbiter r := by
    cases r with | sweep => exact absurd rfl hr | _ => rfl
  have hnot : s.arbiter.owner ≠ some .sweep := by simp [howner .sweep, claim_of_not_begun hb]
  refine ⟨?_, fun r hr => ?_, fun r hr => ?_, hnot, rfl, fun ho r => ?_⟩
  · refine hreq.trans ?_
    show _ = s.arbiter.owner.bind _
    cases ho : s.arbiter.owner with
    | none => rfl
    | some r => exact (hclaim r fun e => hnot (e ▸ ho)).symm
  · rw [hclaim r hr]; exact howner r
  · rw [hwaits r hr, hasks r hr]; exact hwait r
  · by_cases hr : r = .sweep
    · subst hr; rfl
    · rw [hwaits r hr]; exact hfree ho r

theorem counts_withdrawBlock {s : State} (h : CountsSound s) : CountsSound (withdrawBlock s) := by
  obtain ⟨hl, -, hwl, -⟩ := h
  exact ⟨hl, Nat.zero_le _, hwl, fun e => absurd rfl e⟩

/-- With the engine put into a sound state that has no block, a withdrawn block leaves the command in progress. -/
theorem taken_withdrawBlock {s t : State} (h : Taken s) (hb : blockBegun s.sweep = false) {e : SweepEngine}
    (ht : t = (withdrawBlock s).withSweep e) (hblock : e.block = none) (hsweep : EngineSound e) : Taken t := by
  subst ht
  exact ⟨⟨h.running, h.part, counts_withdrawBlock h.counts, h.hold, h.link, h.access, hsweep⟩,
    ((portBut_withdrawBlock h.port hb).transfer (othersKept_withSweep _ e)).sound (silent_of_no_block hblock)⟩

theorem steady_takeSweepSuspend {s : State} (h : Taken s) (hp : s.control.part ≠ .starting) :
    Steady (takeSweepSuspend s) := by
  unfold takeSweepSuspend
  split
  next => exact steady_complete h _ _
  next => exact steady_complete h _ _
  next hrun =>
    split
    next hb => exact steady_await h hp nofun (fun _ => hb) nofun nofun
    next hb =>
      obtain ⟨-, hsome, hrange, -⟩ := h.sweep
      have hlive : s.sweep.state ≠ .idle := by rw [hrun]; decide
      refine steady_complete (taken_withdrawBlock h (by simpa using hb)
        (e := { s.sweep with state := .suspended, block := none }) rfl rfl ?_) _ _
      exact ⟨nofun, fun _ => hsome hlive, fun _ => hrange hlive, by simp, fun _ _ _ hx => nomatch hx⟩

theorem steady_takeSweepResume {s : State} (h : Taken s) : Steady (takeSweepResume s) := by
  unfold takeSweepResume
  split
  next hs =>
    have hblock := no_block_of_state h.sweep (by rw [hs]; decide)
    have hlive : s.sweep.state ≠ .idle := by rw [hs]; decide
    obtain ⟨-, hsome, hrange, -⟩ := h.sweep
    obtain ⟨r, hr⟩ := Option.isSome_iff_exists.mp (hsome hlive)
    rw [complete_withSweep]
    show Steady (takeBlock ((complete .ok [] s).withSweep
      { state := .running, record := s.sweep.record, block := s.sweep.block }))
    rw [hr, hblock]
    exact steady_runSweep h hblock (hrange hlive r hr)
  next => exact steady_complete h _ _

/-- A sweep with no block in hand ends with the command still in progress. -/
theorem taken_endSweep {s : State} (h : Taken s) (hblock : s.sweep.block = none) :
    Taken (endSweep .aborted s) := by
  have hout : PortBut .sweep (endSweep .aborted s) :=
    ((portBut_of_silent h.port (silent_of_no_block hblock)).transfer (othersKept_withSweep s _)).transfer
      ((alike_raise .sweepEnd _).othersKept .sweep)
  exact ⟨⟨h.running, h.part, h.counts, h.hold, h.link, h.access,
    sweepSound_endSweep nofun (record_bounds h.sweep)⟩, hout.sound (silent_of_no_block rfl)⟩

theorem steady_takeSweepAbort {s : State} (h : Taken s) (hp : s.control.part ≠ .starting) :
    Steady (takeSweepAbort s) := by
  unfold takeSweepAbort
  split
  next => exact steady_complete h _ _
  next hs => exact steady_complete (taken_endSweep h (no_block_of_state h.sweep (by rw [hs]; decide))) _ _
  next hrun =>
    split
    next hb => exact steady_await h hp nofun (fun _ => hb) nofun nofun
    next hb =>
      have ended := taken_withdrawBlock h (by simpa using hb)
        (e := { state := .idle, record := s.sweep.record.map (endedRecord .aborted), block := none }) rfl rfl
        (sweepSound_endSweep (s := withdrawBlock s) nofun fun r hr => record_bounds h.sweep r hr)
      exact steady_complete (ended.alike (alike_raise .sweepEnd _)) _ _

/-! ### Boundary commands -/

/-- A soft reset at its boundary makes its change, or waits for the block that has begun (R148, R173). -/
theorem steady_carrySoftReset {s : State} (h : Taken s) (hp : s.control.part ≠ .starting)
    (hi : s.forward.path = .idle) : Steady (carrySoftReset s) := by
  unfold carrySoftReset
  split
  next hb =>
    exact steady_softResetChange h.running h.part hp hi (portBut_of_silent h.port (silent_of_no_block hb)) h.link h.access
  next b hb =>
    split
    next hw =>
      exact steady_softResetChange (s := withdrawBlock s) h.running h.part hp hi
        (portBut_withdrawBlock h.port (by simp [blockBegun, hb, hw])) h.link h.access
    next hw => exact steady_await h hp nofun (fun _ => by simp [blockBegun, hb, hw]) (fun _ => hi) nofun

/-- ENGAGE with FBYP released makes the part ACTIVE (R170). -/
theorem steady_carryEngage {s : State} (h : Taken s) (hp : s.control.part ≠ .starting) : Steady (carryEngage s) := by
  have hclear : s.control.clear = .complete := Decidable.not_not.mp fun e => hp (h.part.1.mpr e)
  unfold carryEngage
  split
  next => exact steady_complete h _ _
  next hf =>
    split
    next => exact steady_complete h _ _
    next =>
      exact steady_complete (h.withControl (c := { s.control with part := .active, forced := false })
        ⟨⟨nofun, fun e => absurd hclear e⟩, nofun, fun e => absurd e hf⟩) _ _

/-- DISENGAGE of an ACTIVE part (R171). -/
theorem steady_carryDisengage (force : Bool) {s : State} (h : Taken s) (hp : s.control.part ≠ .starting) :
    Steady (carryDisengage force s) := by
  have hclear : s.control.clear = .complete := Decidable.not_not.mp fun e => hp (h.part.1.mpr e)
  unfold carryDisengage leaveActive
  split
  · split
    · exact steady_complete h _ _
    · exact steady_complete
        (h.withControl (c := { s.control with part := .bypass }) ⟨⟨nofun, fun e => absurd hclear e⟩, fun _ => rfl, fun _ _ => nofun⟩) _ _
  · exact steady_complete h _ _

theorem steady_carry (b : BoundaryCommand) {s : State} (h : Taken s) (hp : s.control.part ≠ .starting)
    (hi : s.forward.path = .idle) : Steady (carry b s) := by
  cases b with
  | tableCommit =>
    simp only [carry, carryTableCommit]
    split
    · exact steady_complete h _ _
    · exact steady_complete (h.alike (alike_withTable s _)) _ _
  | slotState slot st =>
    simp only [carry, carrySlotState]
    split
    · exact steady_complete h _ _
    · exact steady_complete (h.alike (alike_setStatus s _ _)) _ _
  | slotAck slot => exact steady_complete (h.alike (alike_setStatus s _ _)) _ _
  | storeWrite offset poison words =>
    simp only [carry, carryStoreWrite]
    split
    · exact steady_complete h _ _
    · exact steady_complete (h.alike (alike_withStore s _)) _ _
  | engage => exact steady_carryEngage h hp
  | disengage force => exact steady_carryDisengage force h hp
  | softReset => exact steady_carrySoftReset h hp hi

/-- A boundary command is carried out, or comes to wait for its boundary (R29). -/
theorem steady_atBoundary {b : BoundaryCommand} (hb : b ≠ .softReset) {s : State} (h : Taken s)
    (hp : s.control.part ≠ .starting) : Steady (atBoundary b s) := by
  unfold atBoundary
  split
  next hi => exact steady_carry b h hp hi
  next =>
    exact steady_await h hp nofun (fun hw => by rcases hw with hw | hw | hw <;> cases hw) nofun
      (fun e => absurd (Executing.boundary.inj e) hb)

/-- A SOFT_RESET just taken ends a hold (R102, R173). -/
theorem steady_softResetTaken {s : State} (h : Taken s) (hp : s.control.part ≠ .starting) :
    Steady (endHoldByDrop (await (.boundary .softReset) s)) := by
  cases hx : s.forward.path with
  | held x =>
    have hans : Answerable (clearHeld (await (.boundary .softReset) s)) := {
      running := h.running, part := h.part, counts := h.counts, sweep := h.sweep
      notHeld := rfl
      link := linkSound_await h.link _
      accessing := by simp [h.access]
      begun := by simp [waitsForBlock]
      noReset := by simp
      past := fun e => absurd e hp
      port := portBut_of_silent h.port (silent_of_held hx) }
    simp only [endHoldByDrop, await_forward, hx]
    exact steady_giveResponse (hans.alike (alike_dropRecord _)) _ _
  | _ =>
    rw [endHoldByDrop_of_not_held (by simp [hx])]
    exact steady_await h hp nofun (fun hw => by rcases hw with hw | hw | hw <;> cases hw) nofun
      (fun _ => by simp [hx, isHeld])

theorem steady_takeSoftReset {s : State} (h : Taken s) (hp : s.control.part ≠ .starting) :
    Steady (takeSoftReset s) := by
  have ended := steady_softResetTaken h hp
  have he : (endHoldByDrop (await (.boundary .softReset) s)).link.executing = some (.boundary .softReset) := by simp
  unfold takeSoftReset carryAtIdle
  split
  next hi =>
    exact steady_carrySoftReset (taken_of_executing ended (by simp) (by simp))
      (fun e => nomatch he.symm.trans (ended.past e)) hi
  next => exact ended

/-! ### All commands -/

theorem steady_acknowledgeRecords {s : State} (h : Taken s) (n : Nat) : Steady (acknowledgeRecords n s) :=
  steady_endHoldBySpace (steady_complete (h.alike (alike_removeOldest n s)) _ _)

theorem steady_flushRecords {s : State} (h : Taken s) : Steady (flushRecords s) := by
  unfold flushRecords
  split
  · exact steady_complete (h.alike (alike_removeOldest 0 s)) _ _
  · exact steady_endHoldBySpace (steady_complete (h.alike (alike_removeOldest _ s)) _ _)

theorem steady_takeReadView {s : State} (h : Taken s) (hp : s.control.part ≠ .starting) (addr count : Nat) :
    Steady (takeReadView addr count s) := by
  have proceeds (view : List ViewWord) (o : RequestOutcome) : Steady (proceedView addr count view o s) := by
    unfold proceedView
    split
    · exact steady_beginAccess h hp _
    · exact steady_complete h _ _
  unfold takeReadView
  split
  · exact proceeds _ _
  · exact proceeds _ _

theorem steady_takeSweepFill {s : State} (h : Taken s) (hi : s.sweep.state = .idle) {addr count offset : Nat}
    (hrange : copyRange addr count offset = true) : Steady (takeSweepFill addr count offset s) := by
  unfold takeSweepFill
  split
  · exact steady_complete h _ _
  · exact steady_startSweep h hi (Bool.and_eq_true_iff.mp hrange).1 _

/-- A dispatched command answers, or comes to wait, in a steady state (R159, R160). -/
theorem runCommand_answers (c : Command) : Answers (runCommand c) := by
  cases c with
  | nop | partStatus | alertStatus => exact fun _ h => steady_complete h _ _
  | ping echo =>
    intro s h
    simp only [runCommand, runPing]
    split
    · exact steady_complete h _ _
    · exact steady_complete h _ _
  | tableCommit | engage => exact unlessStarting_answers fun _ => steady_atBoundary (by nofun)
  | disengage | storeWrite =>
    refine unlessStarting_answers fun s h hp => ?_
    split
    · exact steady_atBoundary (by nofun) h hp
    · exact steady_complete h _ _
  | softReset => exact unlessStarting_answers fun _ => steady_takeSoftReset
  | setConfig f =>
    refine unlessStarting_answers fun s h _ => ?_
    split
    · exact steady_complete (h.alike (alike_writeConfig _ s)) _ _
    · exact steady_complete h _ _
  | readConfig | captureInfo | lastAccess | sweepStatus => exact unlessStarting_answers fun s h _ => steady_complete h _ _
  | alertAck causes =>
    refine unlessStarting_answers fun s h _ => ?_
    split
    · exact steady_complete (h.alike (alike_clearCauses _ s)) _ _
    · exact steady_complete h _ _
  | slotStage slot f =>
    refine onSlot_answers slot fun s h _ => ?_
    split
    · exact steady_complete (h.alike (alike_withTable s _)) _ _
    · exact steady_complete h _ _
  | slotUnstage slot => exact onSlot_answers slot fun s h _ => steady_complete (h.alike (alike_withTable s _)) _ _
  | tableDiscard => exact unlessStarting_answers fun s h _ => steady_complete (h.alike (alike_withTable s _)) _ _
  | slotRead slot => exact onSlot_answers slot fun s h _ => steady_complete h _ _
  | slotState slot state =>
    refine onSlot_answers slot fun s h hp => ?_
    split
    · exact steady_atBoundary (by nofun) h hp
    · exact steady_complete h _ _
  | slotAck slot => exact onSlot_answers slot fun _ => steady_atBoundary (by nofun)
  | captureRead | storeRead =>
    refine unlessStarting_answers fun s h _ => ?_
    split
    · exact steady_complete h _ _
    · exact steady_complete h _ _
  | captureAck sequence =>
    refine unlessStarting_answers fun s h _ => ?_
    split
    · exact steady_acknowledgeRecords h _
    · exact steady_complete h _ _
  | captureFlush => exact unlessStarting_answers fun s h _ => steady_flushRecords h
  | readRaw | writeRaw | writeVerify =>
    refine unlessStarting_answers fun s h hp => ?_
    split
    · exact steady_beginAccess h hp _
    · exact steady_complete h _ _
  | readView addr count =>
    refine unlessStarting_answers fun s h hp => ?_
    split
    · exact steady_takeReadView h hp _ _
    · exact steady_complete h _ _
  | sweepCheck addr count expected => exact checkStart_answers _ fun s h hi hr => steady_startSweep h hi hr _
  | sweepFill addr count offset => exact checkStart_answers _ fun s h hi hr => steady_takeSweepFill h hi hr
  | sweepPush offset count addr verify =>
    exact checkStart_answers _ fun s h hi hr =>
      steady_startSweep h hi (Bool.and_eq_true_iff.mp (Bool.and_eq_true_iff.mp hr).1).1 _
  | sweepSuspend => exact unlessStarting_answers fun _ => steady_takeSweepSuspend
  | sweepResume => exact unlessStarting_answers fun s h _ => steady_takeSweepResume h
  | sweepAbort => exact unlessStarting_answers fun _ => steady_takeSweepAbort

theorem steady_runQueued (q : QueuedCommand) {s : State} (h : Taken s) : Steady (runQueued q s) := by
  unfold runQueued
  cases parseCommand q.code q.args with
  | unknown => exact steady_complete h _ _
  | badLength => exact steady_complete h _ _
  | ok c => exact runCommand_answers c h

theorem steady_startHead {s : State} (h : Steady s) : Steady (startHead s) := by
  unfold startHead
  split
  next q rest hq =>
    split
    next hstart => exact steady_runQueued q (taken_reserve h hq hstart)
    next => exact h
  next => exact h

theorem steady_considerNext {s : State} (h : Steady s) : Steady (considerNext s) := by
  have started (n : Nat) : ∀ s, Steady s → Steady (startNext n s) := by
    induction n with
    | zero => exact fun _ hs => hs
    | succ n ih => exact fun _ hs => ih _ (steady_startHead hs)
  exact started _ s h

/-! ## The link interface -/

/-- A change of the link interface that leaves the executing command. -/
theorem Steady.withLink {s : State} (h : Steady s) {l : LinkInterface} (hl : LinkSound (s.withLink l))
    (he : l.executing = s.link.executing) : Steady (s.withLink l) where
  running := h.running
  part := h.part
  counts := h.counts
  hold := h.hold
  sweep := h.sweep
  port := h.port
  link := hl
  accessing := by rw [State.withLink_link, he]; exact h.accessing
  resetIdle := by rw [State.withLink_link, he]; exact h.resetIdle
  resetHeld := by rw [softResetWaits, State.withLink_link, he]; exact h.resetHeld
  past := by rw [State.withLink_link, he]; exact h.past
  begun := by rw [waitsForBlock, State.withLink_link, he]; exact h.begun

theorem queueFull_eq_false {s : State} (h : queueFull s = false) : s.link.commands.length < Config.linkDepth := by
  simpa [queueFull] using h

theorem steady_enqueue {s : State} (h : Steady s) (hf : queueFull s = false) (q : QueuedCommand) :
    Steady (enqueue q s) := by
  obtain ⟨⟨-, hresponses, hheld, hbusy⟩, hlast, hexchange⟩ := h.link
  have hlen := queueFull_eq_false hf
  refine h.withLink ⟨⟨by simpa using hlen, hresponses, hheld, fun he => ?_⟩, hlast, hexchange⟩ rfl
  obtain ⟨hne, hnewest, hdrop⟩ := hbusy he
  obtain ⟨x, rest, hx⟩ := List.exists_cons_of_ne_nil hne
  exact ⟨by simp, by simpa [hx] using hnewest, hdrop⟩

/-- What a link interface refers to after an item of a kind has left it (R153). -/
theorem references_dropped {l l' : LinkInterface} {k : Sent} (hlast : referenceSound l l.lastSent)
    (hexchange : ∀ x ∈ l.exchange, referenceSound l x.chosen)
    (hkeep : ∀ x, x ≠ k → referenceSound l x → referenceSound l' x)
    (hl : l'.lastSent = (dropReference k l).lastSent) (hx : l'.exchange = (dropReference k l).exchange) :
    referenceSound l' l'.lastSent ∧ ∀ x ∈ l'.exchange, referenceSound l' x.chosen := by
  have dropped (x : Sent) (h : referenceSound l x) : referenceSound l' (if x = k then .nothing else x) := by
    split
    next => exact ⟨nofun, nofun⟩
    next hne => exact hkeep x hne h
  refine ⟨by rw [hl]; exact dropped _ hlast, fun x hmem => ?_⟩
  rw [hx] at hmem
  obtain ⟨y, hy, rfl⟩ := Option.mem_map.mp hmem
  exact dropped _ (hexchange y hy)

theorem steady_refuse {s : State} (h : Steady s) (seq : Byte) (st : Status) : Steady (refuse seq st s) := by
  obtain ⟨hqueues, hlast, hexchange⟩ := h.link
  have taken : Steady (s.withLink { dropReference .refusal s.link with
      refusal := some ⟨seq, st, s.link.refusal.isSome⟩ }) :=
    h.withLink ⟨hqueues, references_dropped hlast hexchange (fun x _ hr => ⟨fun _ => rfl, hr.2⟩) rfl rfl⟩ rfl
  exact taken.alike (alike_raise .linkRefusal _)

/-- The first of held entries leaves the response queue (R156). -/
theorem removeHeld_of_linkSound {s : State} (h : LinkSound s) (hne : heldResponses s.link.responses ≠ []) :
    ∃ x, s.link.responses = .held x :: removeHeld s.link.responses := by
  obtain ⟨⟨-, -, hheld, -⟩, -⟩ := id h
  have headHeld {es : List Entry} (hes : es.all isHeldEntry = true) (hn : es ≠ []) (rest : List Entry) :
      ∃ x, es ++ rest = .held x :: removeHeld (es ++ rest) := by
    obtain ⟨e, es', rfl⟩ := List.exists_cons_of_ne_nil hn
    cases e with
    | held x => exact ⟨x, rfl⟩
    | reserved q => simp [isHeldEntry] at hes
  by_cases he : s.link.executing = none
  · have hn : s.link.responses ≠ [] := fun e => hne (by rw [e]; rfl)
    simpa using headHeld (hheld he) hn []
  · obtain ⟨q, rest, held, -, hr, hall⟩ := (busy_of_executing h he).head
    rw [hr] at hne ⊢
    exact headHeld hall (fun e => hne (by rw [e]; rfl)) _

theorem steady_removeLast {s : State} (h : Steady s) : Steady (s.withLink (removeLast s.link)) := by
  obtain ⟨hqueues, hlast, hexchange⟩ := h.link
  unfold removeLast
  split
  next => exact h
  next =>
    refine h.withLink ⟨hqueues, references_dropped (k := .refusal) hlast hexchange (fun x hx hr => ?_) rfl rfl⟩ rfl
    exact ⟨fun e => absurd e hx, hr.2⟩
  next hk =>
    obtain ⟨x, hx⟩ := removeHeld_of_linkSound h.link (hlast.2 hk)
    obtain ⟨hcommands, hresponses, hheld, hbusy⟩ := hqueues
    refine h.withLink ⟨⟨hcommands, ?_, fun he => ?_, fun he => ?_⟩,
      references_dropped (k := .response) hlast hexchange (fun x hx hr => ⟨hr.1, fun e => absurd e hx⟩) rfl rfl⟩ rfl
    · rw [hx] at hresponses; exact Nat.le_of_succ_le hresponses
    · have hall := hheld he
      rw [hx, List.all_cons, Bool.and_eq_true] at hall
      exact hall.2
    · obtain ⟨hne, hnewest, hdrop⟩ := hbusy he
      obtain ⟨q, rest, hq⟩ := List.exists_cons_of_ne_nil hne
      rw [hx, hq] at hnewest
      rw [hx] at hdrop
      cases hl : removeHeld s.link.responses with
      | nil => rw [hl] at hnewest; cases hnewest
      | cons y ys =>
        rw [hl, List.getLast?_cons_cons] at hnewest
        rw [hl, List.dropLast_cons_cons, List.all_cons, Bool.and_eq_true] at hdrop
        exact ⟨hne, by simpa [hl, hq, dropReference] using hnewest, by simpa [hl] using hdrop.2⟩

theorem steady_acknowledge {s : State} (h : Steady s) (ack : Option Byte) : Steady (acknowledge ack s) := by
  unfold acknowledge
  split
  · exact steady_removeLast h
  · exact h

theorem acknowledge_commands (ack : Option Byte) (s : State) : (acknowledge ack s).link.commands = s.link.commands := by
  unfold acknowledge removeLast
  (repeat' split) <;> rfl

/-- Every frame fails a check at a full queue (R154). -/
theorem failedCheck_full (bs : List Byte) : failedCheck bs true ≠ none := by
  unfold failedCheck
  simp only [if_true]
  (repeat' split) <;> nofun

theorem steady_examine {s : State} (h : Steady s) (bs : List Byte) : Steady (examine bs s) := by
  unfold examine
  split
  · exact h
  · split
    next => exact steady_refuse h _ _
    next hcheck =>
      have hspace : queueFull s = false := by
        cases hf : queueFull s with
        | false => rfl
        | true => exact absurd (hf ▸ hcheck) (failedCheck_full bs)
      exact steady_enqueue (steady_acknowledge h _) (by simpa [queueFull, acknowledge_commands] using hspace) _

theorem steady_closeExchange {s : State} (h : Steady s) : Steady (closeExchange s) := by
  obtain ⟨hqueues, hlast, hexchange⟩ := h.link
  unfold closeExchange
  split
  next x hx =>
    refine h.withLink ⟨hqueues, ?_, nofun⟩ rfl
    simp only [State.withLink_link]
    split
    · exact hexchange x hx
    · exact hlast
  next => exact h

theorem steady_endExchange {s : State} (h : Steady s) (bits : List Bool) : Steady (endExchange bits s) := by
  obtain ⟨hqueues, hlast, hexchange⟩ := h.link
  unfold endExchange
  split
  next x hx =>
    have clocked : Steady (s.withLink { s.link with exchange := some (clockBits bits x) }) := by
      refine h.withLink ⟨hqueues, hlast, fun y hy => ?_⟩ rfl
      obtain rfl : clockBits bits x = y := by simpa using hy
      exact hexchange x hx
    exact steady_closeExchange (steady_examine clocked _)
  next => exact h

/-- An exchange that begins chooses an item that is there (R152). -/
theorem steady_beginExchange {s : State} (h : Steady s) : Steady (beginExchange s) := by
  obtain ⟨hqueues, hlast, -⟩ := h.link
  refine h.withLink ⟨hqueues, hlast, fun x hx => ?_⟩ rfl
  obtain rfl : (⟨chooseItem s.link, composeFrame s.link s.alert, 0, []⟩ : Exchange) = x := by simpa using hx
  show referenceSound s.link (chooseItem s.link)
  unfold chooseItem
  split
  next hr => exact ⟨fun _ => by simp [hr], nofun⟩
  next hr => exact ⟨nofun, fun _ => by simp [hr]⟩
  next => exact ⟨nofun, nofun⟩

theorem steady_submit {s : State} (h : Steady s) (q : QueuedCommand) {run : State → State}
    (hrun : Answers run) : Steady (submit q run s) := by
  unfold submit
  split
  next => exact h
  next =>
    split
    next => exact steady_refuse h _ _
    next hf =>
      have queued := steady_enqueue h (by simpa using hf) q
      split
      next hs =>
        obtain ⟨hempty, hstart⟩ := Bool.and_eq_true_iff.mp hs
        have hq : (enqueue q s).link.commands = [q] := by simpa [enqueue] using hempty
        simp only [startWith, hq]
        exact hrun (taken_reserve queued hq hstart)
      next => exact queued

end Sys2Proof.Proofs

namespace Sys2Proof.Proofs

open Sys2Proof.Machine

set_option Elab.async false

/-! ## Events with RESET released -/

/-- A change of the pins after which RESET is still released, and FBYP leaves no ACTIVE part at an IDLE path. -/
theorem Steady.withPins {s : State} (h : Steady s) {p : Pins} (hr : p.reset = false)
    (hf : p.fbyp = true → s.forward.path = .idle → s.control.part ≠ .active) : Steady (s.withPins p) where
  running := hr
  part := ⟨h.part.1, h.part.2.1, hf⟩
  counts := h.counts
  hold := h.hold
  link := h.link
  accessing := h.accessing
  resetIdle := h.resetIdle
  resetHeld := h.resetHeld
  past := h.past
  sweep := h.sweep
  begun := h.begun
  port := h.port

/-- The pins but for FBYP and RESET. -/
theorem steady_otherPins {s : State} (h : Steady s) {p : Pins} (hr : p.reset = s.pins.reset)
    (hf : p.fbyp = s.pins.fbyp) : Steady (s.withPins p) := by
  obtain ⟨-, -, hfbyp⟩ := h.part
  exact h.withPins (hr.trans h.running) (hf ▸ hfbyp)

theorem Steady.withControl {s : State} (h : Steady s) {c : Control} (hpart : PartSound (s.withControl c))
    (hpast : c.part = .starting → s.link.executing = none) : Steady (s.withControl c) where
  running := h.running
  part := hpart
  counts := h.counts
  hold := h.hold
  link := h.link
  accessing := h.accessing
  resetIdle := h.resetIdle
  resetHeld := h.resetHeld
  past := hpast
  sweep := h.sweep
  begun := h.begun
  port := h.port

/-! ### Lines and time -/

theorem steady_assertFbyp {s : State} (h : Steady s) : Steady (assertFbyp s) := by
  unfold assertFbyp
  split
  next =>
    exact steady_sampleFbyp ((h.withPins (p := { s.pins with fbyp := false }) h.running nofun))
  next hi => exact h.withPins h.running fun _ e => absurd e hi

/-- The start-up clear completes into BYPASS (R169). -/
theorem steady_finishClear {s : State} (h : Steady s) : Steady (finishClear s) := by
  have stored := h.alike (alike_withStore s [])
  have bypassed : Steady ((s.withStore []).withControl { s.control with part := .bypass, clear := .complete }) :=
    stored.withControl ⟨⟨nofun, fun e => absurd rfl e⟩, fun _ => rfl, fun _ _ => nofun⟩ nofun
  exact bypassed.alike (alike_raise .started _)

theorem steady_completeClear {s : State} (h : Steady s) : Steady (completeClear s) := by
  unfold completeClear
  split
  · split
    · exact h
    · exact steady_finishClear h
  · exact h

theorem steady_clockClear {s : State} (h : Steady s) : Steady (clockClear s) := by
  unfold clockClear
  split
  next => exact h
  next next hrun =>
    split
    next =>
      obtain ⟨hclear, hforced, hfbyp⟩ := h.part
      have hstart : s.control.part = .starting := hclear.mpr (by simp [hrun])
      exact (h.alike (alike_withStore s _)).withControl ⟨⟨fun _ => nofun, fun _ => hstart⟩, hforced, hfbyp⟩ h.past
    next => exact steady_finishClear h

/-- The expiry ends the request of the port's owner (R118). -/
theorem steady_timeoutEvent {s : State} (h : Steady s) : Steady (timeoutEvent s) := by
  refine steady_considerNext ?_
  unfold expireTimeout
  split
  · split
    next hf => exact steady_hostTimedOut h hf
    next => exact h
  · split
    next hjob => exact steady_linkTimedOut h hjob
    next => exact h
  · split
    next hq => exact steady_sweepTimedOut h hq
    next => exact h
  · exact h

theorem steady_clockTimeout {s : State} (h : Steady s) : Steady (clockTimeout s) := by
  unfold clockTimeout
  split
  next => exact h
  next d hd =>
    split
    next => exact steady_timeoutEvent h
    next =>
      exact h.alike ⟨rfl, rfl, rfl, rfl, rfl, rfl, rfl, rfl, by simp [hd], rfl, rfl, rfl⟩

theorem steady_clockPrescale {s : State} (h : Steady s) : Steady (clockPrescale s) := by
  unfold clockPrescale
  split
  · exact h.alike (alike_tick s)
  · exact h.alike (alike_withControl s rfl rfl rfl)

theorem steady_clockHold {s : State} (h : Steady s) : Steady (clockHold s) := by
  unfold clockHold
  split
  · split
    · exact steady_endHoldByDrop h
    · exact h
  · exact h

theorem steady_busClock {s : State} (h : Steady s) : Steady (busClock s) := by
  unfold busClock
  split
  · exact h
  · exact steady_clockHold (steady_clockPrescale (steady_clockTimeout
      (steady_otherPins (steady_clockClear h) rfl rfl)))

/-! ### Rows -/

theorem steady_assertLsel {s : State} (h : Steady s) : Steady (assertLsel s) := by
  unfold assertLsel
  split
  · exact h
  · split
    · exact steady_otherPins h rfl rfl
    · exact steady_otherPins (steady_beginExchange h) rfl rfl

theorem steady_executeBoundary {s : State} (h : Steady s) : Steady (executeBoundary s) := by
  unfold executeBoundary
  split
  next he hi =>
    exact steady_carry _ (taken_of_executing h (by simp [he]) (by simp [he])) (fun e => nomatch he.symm.trans (h.past e)) hi
  next => exact h

theorem execDownstreamResponse_steady {s : State} (h : Steady s) (resp : BusResponse) :
    NextIn Steady (execDownstreamResponse resp s) := by
  unfold execDownstreamResponse
  split
  next hf => exact nextIn_checked (steady_hostAnswered h hf resp) _ _
  next => exact nextIn_next h

theorem execLinkAccessResponse_steady {s : State} (h : Steady s) (resp : BusResponse) :
    NextIn Steady (execLinkAccessResponse resp s) := by
  unfold execLinkAccessResponse
  split
  next hjob => exact nextIn_checked (steady_considerNext (steady_linkAccessAnswered h hjob resp)) _ _
  next => exact nextIn_next h

theorem execSweepBlockResponse_steady {s : State} (h : Steady s) (resp : BusResponse) :
    NextIn Steady (execSweepBlockResponse resp s) := by
  unfold execSweepBlockResponse
  split
  next hq => exact nextIn_checked (steady_considerNext (steady_sweepAnswered h hq resp)) _ _
  next => exact nextIn_next h

theorem execStoreUpset_steady {s : State} (h : Steady s) (offset : Nat) (data : Word) :
    NextIn Steady (execStoreUpset offset data s) := by
  unfold execStoreUpset
  split
  · exact nextIn_next (h.alike (alike_withStore s _))
  · exact nextIn_fault _ _

/-- Every row but POWER_ON_RESET keeps a part with RESET released steady. -/
theorem exec_steady (i : Instr) (hi : i ≠ .powerOnReset) {s : State} (h : Steady s) : NextIn Steady (exec i s) := by
  cases hc : i.command with
  | some p =>
    rw [exec_of_command (q := p.1) (c := p.2) hc]
    exact nextIn_next (steady_submit h _ (runCommand_answers p.2))
  | none =>
    cases i with
    | powerOnReset => exact absurd rfl hi
    | resetRelease => exact nextIn_next (steady_otherPins h h.running.symm rfl)
    | startupClearComplete => exact nextIn_next (steady_completeClear h)
    | fbypAssert => exact nextIn_next (steady_assertFbyp h)
    | fbypRelease => exact nextIn_next (h.withPins h.running nofun)
    | storeUpset offset data => exact execStoreUpset_steady h offset data
    | hostRequestAccept r => exact nextIn_checked (steady_presentRequest h r) _ _
    | downstreamResponse resp => exact execDownstreamResponse_steady h resp
    | linkAccessResponse resp => exact execLinkAccessResponse_steady h resp
    | sweepBlockResponse resp => exact execSweepBlockResponse_steady h resp
    | downstreamTimeoutExpiry => exact nextIn_next (steady_timeoutEvent h)
    | holdExpiry => exact nextIn_next (steady_endHoldByDrop h)
    | timestampTick =>
      refine nextIn_next ?_
      split
      · exact h
      · exact h.alike (alike_tick s)
    | markPulseEnd => exact nextIn_next (steady_otherPins h rfl rfl)
    | lselAssert => exact nextIn_next (steady_assertLsel h)
    | exchangeEnd ldi =>
      exact nextIn_next (steady_considerNext
        (steady_endExchange (steady_otherPins (p := { s.pins with lsel := false }) h rfl rfl) ldi))
    | commandStart => exact nextIn_next (steady_considerNext h)
    | unknownCommand seq code args => exact nextIn_next (steady_submit h _ fun _ ht => steady_runQueued _ ht)
    | boundaryCommandExecution => exact nextIn_next (steady_considerNext (steady_executeBoundary h))
    | _ => cases hc

/-! ## While RESET is active -/

/-- The part held in reset: nothing is in progress, and nothing waits (R168). -/
structure Quiet (s : State) : Prop where
  reset : s.pins.reset = true
  mark : s.pins.markLeft = 0
  starting : s.control.part = .starting
  clear : s.control.clear ≠ .complete
  forced : s.control.forced = false
  timestamp : s.control.timestamp = 0
  path : s.forward.path = .idle
  held : s.capture.held = none
  counts : CountsSound s
  port : PortSound s
  outstanding : s.port.outstanding = none
  access : s.access = .idle
  sweep : SweepSound s
  engine : s.sweep.state = .idle
  link : LinkSound s
  commands : s.link.commands = []
  executing : s.link.executing = none
  exchange : s.link.exchange = none

theorem quiet_powerOn (s : State) : Quiet (powerOnState s) where
  reset := rfl
  mark := rfl
  starting := rfl
  clear := nofun
  forced := rfl
  timestamp := rfl
  path := rfl
  held := rfl
  counts := (by decide : CountsFit resetArbiter)
  port := (portSound_iff _).mpr ⟨rfl, fun r => by cases r <;> simp [powerOnState, State.reset, resetArbiter, claim,
    forwardRequest, accessRequest, blockOutstanding, sweepOutstanding, resetSweep], fun r => by cases r <;> rfl,
    fun _ r => by cases r <;> rfl⟩
  outstanding := rfl
  access := rfl
  sweep := by simp [powerOnState, State.reset, SweepSound, resetSweep]
  engine := rfl
  link := (by decide : LinkSound State.reset)
  commands := rfl
  executing := rfl
  exchange := rfl

namespace Quiet

variable {s : State} (h : Quiet s)
include h

theorem part : PartSound s :=
  ⟨⟨fun _ => h.clear, fun _ => h.starting⟩, by simp [h.forced], fun _ _ => by simp [h.starting]⟩

/-- The release of RESET (R168). -/
theorem steady_releaseReset : Steady (releaseReset s) where
  running := rfl
  part := h.part
  counts := h.counts
  hold := by simp [releaseReset, HoldSound, h.path, h.held, isHeld]
  link := h.link
  accessing := by simp [releaseReset, h.executing, h.access]
  resetIdle _ := h.path
  resetHeld _ := by simp [releaseReset, h.path, isHeld]
  past _ := h.executing
  sweep := h.sweep
  begun e := by simp [releaseReset, waitsForBlock, h.executing] at e
  port := h.port

/-- A change of FBYP, of LSEL, of the store, of the waiting commands or of what the host presents. -/
theorem of_units {t : State} (hreset : t.pins.reset = s.pins.reset) (hmark : t.pins.markLeft = s.pins.markLeft)
    (hcontrol : t.control = s.control) (hpath : t.forward.path = s.forward.path) (hcapture : t.capture = s.capture)
    (harbiter : t.arbiter = s.arbiter) (hport : t.port = s.port) (haccess : t.access = s.access)
    (hsweep : t.sweep = s.sweep) (hlink : t.link = s.link) : Quiet t where
  reset := hreset.trans h.reset
  mark := hmark.trans h.mark
  starting := by rw [hcontrol]; exact h.starting
  clear := by rw [hcontrol]; exact h.clear
  forced := by rw [hcontrol]; exact h.forced
  timestamp := by rw [hcontrol]; exact h.timestamp
  path := hpath.trans h.path
  held := by rw [hcapture]; exact h.held
  counts := by rw [CountsSound, harbiter]; exact h.counts
  port := by
    have hclaim : claim t = claim s := funext fun r => by
      cases r
      · rw [claim, claim, hpath]
      · rw [claim, claim, haccess]
      · rw [claim, claim, hsweep]
    have hasks : asks t = asks s := funext fun r => by
      cases r
      · rw [asks, asks, hpath]
      · rw [asks, asks, haccess]
      · rw [asks, asks, hsweep]
    rw [portSound_iff, hport, harbiter, hclaim, hasks, ← portSound_iff]
    exact h.port
  outstanding := by rw [hport]; exact h.outstanding
  access := haccess.trans h.access
  sweep := by rw [SweepSound, hsweep]; exact h.sweep
  engine := by rw [hsweep]; exact h.engine
  link := by rw [LinkSound, hlink]; exact h.link
  commands := by rw [hlink]; exact h.commands
  executing := by rw [hlink]; exact h.executing
  exchange := by rw [hlink]; exact h.exchange

theorem withPins {p : Pins} (hr : p.reset = s.pins.reset) (hm : p.markLeft = s.pins.markLeft) : Quiet (s.withPins p) :=
  h.of_units hr hm rfl rfl rfl rfl rfl rfl rfl rfl

theorem owner : s.arbiter.owner = none := by
  obtain ⟨hreq, howner, -⟩ := (portSound_iff s).mp h.port
  cases ho : s.arbiter.owner with
  | none => rfl
  | some r =>
    have hclaim := (howner r).mp ho
    rw [h.outstanding, ho, Option.bind_some] at hreq
    simp [← hreq] at hclaim

theorem no_block : s.sweep.block = none := no_block_of_state h.sweep (by rw [h.engine]; decide)

theorem considerNext_eq : considerNext s = s := considerNext_of_empty h.commands

/-- No row but the release of RESET reaches a part held in reset. -/
theorem exec_quiet (i : Instr) : NextIn (fun t => Steady t ∨ Quiet t) (exec i s) := by
  have stays {t : State} (ht : Quiet t) : NextIn (fun t => Steady t ∨ Quiet t) (.next t) := nextIn_next (.inr ht)
  have same {t : State} (ht : t = s) : NextIn (fun t => Steady t ∨ Quiet t) (.next t) := stays (by rw [ht]; exact h)
  cases hc : i.command with
  | some p =>
    rw [exec_of_command (q := p.1) (c := p.2) hc]
    exact same (submit_reset h.reset _ _)
  | none =>
    cases i with
    | powerOnReset => exact stays (quiet_powerOn s)
    | resetRelease => exact nextIn_next (.inl h.steady_releaseReset)
    | startupClearComplete =>
      refine same (t := completeClear s) ?_
      unfold completeClear
      split
      · exact if_pos h.reset
      · rfl
    | fbypAssert =>
      have hs : assertFbyp s = s.withPins { s.pins with fbyp := true } := by
        rw [assertFbyp, if_pos h.path, sampleFbyp_of_not_active (by rw [State.withPins_control, h.starting]; decide)]
      exact stays (t := assertFbyp s) (by rw [hs]; exact h.withPins rfl rfl)
    | fbypRelease => exact stays (h.withPins rfl rfl)
    | storeUpset offset data =>
      simp only [exec, execStoreUpset]
      split
      · exact stays (h.of_units rfl rfl rfl rfl rfl rfl rfl rfl rfl rfl)
      · exact nextIn_fault _ _
    | hostRequestAccept r =>
      have hs : presentRequest r s = s.withForward { s.forward with presented := some (s.forward.presented.getD r) } :=
        if_neg (by simp [mayAccept, h.reset])
      refine nextIn_checked (t := presentRequest r s) (.inr ?_) _ _
      rw [hs]
      exact h.of_units rfl rfl rfl rfl rfl rfl rfl rfl rfl rfl
    | downstreamResponse resp =>
      simp only [exec, execDownstreamResponse, h.path]
      exact same rfl
    | linkAccessResponse resp =>
      simp only [exec, execLinkAccessResponse, h.access]
      exact same rfl
    | sweepBlockResponse resp =>
      have hs : sweepOutstanding s.sweep = none := by simp [sweepOutstanding, h.no_block]
      simp only [exec, execSweepBlockResponse, hs]
      exact same rfl
    | downstreamTimeoutExpiry =>
      exact same (t := timeoutEvent s) (by simp [timeoutEvent, expireTimeout, h.owner, h.considerNext_eq])
    | holdExpiry => exact same (t := endHoldByDrop s) (endHoldByDrop_of_not_held (by simp [h.path]))
    | timestampTick => exact same (if_pos h.reset)
    | markPulseEnd => exact stays (h.withPins rfl h.mark.symm)
    | lselAssert =>
      simp only [exec, execLselAssert, assertLsel]
      split
      · exact same rfl
      · rw [if_pos h.reset]
        exact stays (h.withPins rfl rfl)
    | exchangeEnd ldi =>
      have released : Quiet (s.withPins { s.pins with lsel := false }) := h.withPins rfl rfl
      have hs : endExchange ldi (s.withPins { s.pins with lsel := false }) = s.withPins { s.pins with lsel := false } := by
        simp [endExchange, h.exchange]
      simp only [exec, execExchangeEnd, hs, released.considerNext_eq]
      exact stays released
    | commandStart => exact same h.considerNext_eq
    | unknownCommand seq code args => exact same (submit_reset h.reset _ _)
    | boundaryCommandExecution =>
      exact same (t := considerNext (executeBoundary s)) (by simp [executeBoundary, h.executing, h.considerNext_eq])
    | _ => cases hc

end Quiet

/-! ## Sound states -/

theorem steady_of_sound {s : State} (h : Sound s) (hr : s.pins.reset = false) : Steady s := by
  obtain ⟨haccess, hbegun, hidle, hheld, hpast⟩ := h.wait
  exact ⟨⟨⟨hr, h.part, h.counts, h.hold, h.link, haccess, hidle, hheld, hpast⟩, h.sweep, hbegun⟩, h.port⟩

theorem quiet_of_sound {s : State} (h : Sound s) (hr : s.pins.reset = true) : Quiet s := by
  obtain ⟨hstart, hpath, hout, hcommands, hexchange, htime, hmark, hengine⟩ := h.reset hr
  obtain ⟨hclear, hforced, -⟩ := h.part
  obtain ⟨haccess, -, -, -, hpast⟩ := h.wait
  have he : s.link.executing = none := hpast hstart
  exact {
    reset := hr, mark := hmark, starting := hstart, clear := hclear.mp hstart, timestamp := htime, path := hpath
    forced := Bool.eq_false_iff.mpr fun e => nomatch hstart.symm.trans (hforced e)
    held := by simpa [HoldSound, hpath, isHeld] using h.hold
    counts := h.counts, port := h.port, outstanding := hout
    access := Decidable.not_not.mp fun e => nomatch he.symm.trans (haccess.mpr e)
    sweep := h.sweep, engine := hengine, link := h.link, commands := hcommands, executing := he, exchange := hexchange }

/-- The constraints on what a unit stores. -/
structure StoredSound (s : State) : Prop where
  store : StoreSound s
  table : TableSound s
  limits : LimitsSound s
  configs : ConfigsSound s
  capture : CaptureSound s

theorem sound_of_steady {s : State} (hs : StoredSound s) (h : Steady s) : Sound s :=
  ⟨hs.store, hs.table, hs.limits, hs.configs, hs.capture, h.part, h.counts, h.port, h.sweep, h.hold, h.link, h.wait,
    fun e => nomatch h.running.symm.trans e⟩

theorem sound_of_quiet {s : State} (hs : StoredSound s) (h : Quiet s) : Sound s where
  store := hs.store
  table := hs.table
  limits := hs.limits
  configs := hs.configs
  capture := hs.capture
  part := h.part
  counts := h.counts
  port := h.port
  sweep := h.sweep
  hold := by simp [HoldSound, h.path, h.held, isHeld]
  link := h.link
  wait := ⟨by simp [h.executing, h.access], by simp [h.executing], by simp [h.executing], by simp [h.path, isHeld],
    fun _ => h.executing⟩
  reset _ := ⟨h.starting, h.path, h.outstanding, h.commands, h.exchange, h.timestamp, h.mark, h.engine⟩

/-- A step from a steady state or from one held in reset ends in such a state. -/
theorem step_steadyOrQuiet {s : State} (h : Steady s ∨ Quiet s) : NextIn (fun t => Steady t ∨ Quiet t) (step s) := by
  unfold step
  split
  next =>
    rcases h with h | h
    · exact nextIn_next (.inl (steady_busClock h))
    · exact nextIn_next (.inr (by rw [busClock, if_pos h.reset]; exact h))
  next i rest _ =>
    rcases h with h | h
    · have hs : Steady (s.withPending rest) :=
        h.alike ⟨rfl, rfl, rfl, rfl, rfl, rfl, rfl, rfl, rfl, rfl, rfl, rfl⟩
      by_cases hi : i = .powerOnReset
      · subst hi; exact nextIn_next (.inr (quiet_powerOn _))
      · exact fun t ht => .inl (exec_steady i hi hs ht)
    · exact (h.of_units (t := s.withPending rest) rfl rfl rfl rfl rfl rfl rfl rfl rfl rfl).exec_quiet i

/-- Settles O7. What each unit stores stays sound by O3 to O6. The units agree with one another in every state that a step
ends in: with RESET released it is steady, with RESET active nothing is in progress. -/
theorem soundStatesStaySound : Obligations.SoundStatesStaySound := by
  intro s t hs hstep
  obtain ⟨htable, hconfigs⟩ := configsStayInRange s t hs.table hs.configs hstep
  have stored : StoredSound t := ⟨storeStaysCanonical s t hs.store hstep, htable,
    slotsStayBelowTheirLimit s t hs.limits hstep, hconfigs, captureQueueStaysConsecutive s t hs.capture hstep⟩
  have units : Steady s ∨ Quiet s := by
    cases hr : s.pins.reset with
    | false => exact .inl (steady_of_sound hs hr)
    | true => exact .inr (quiet_of_sound hs hr)
  rcases step_steadyOrQuiet units hstep with h | h
  · exact sound_of_steady stored h
  · exact sound_of_quiet stored h

end Sys2Proof.Proofs

namespace Sys2Proof.Proofs

open Sys2Proof.Machine

set_option Elab.async false

/-! ## The choice of a grant decision

The choice reads the waiting set and the counts alone, so it is the same before and after the port is freed. -/

/-- A LINK at its patience overtakes everyone (R115). -/
theorem chooseRequester_link {p : Nat} {a : Arbiter} (hp : p ≠ 0) (hw : a.waitLink = true) (hc : p ≤ a.linkPassed) :
    chooseRequester p a = some .link := if_pos ⟨hp, hw, hc⟩

/-- A SWEEP at its patience overtakes everyone but a LINK at its own (R115). -/
theorem chooseRequester_sweep {p : Nat} {a : Arbiter} (hp : p ≠ 0) (hw : a.waitSweep = true) (hc : p ≤ a.sweepPassed)
    (hl : a.waitLink = false ∨ a.linkPassed < p) : chooseRequester p a = some .sweep := by
  have hlink : ¬ (p ≠ 0 ∧ a.waitLink = true ∧ p ≤ a.linkPassed) := by
    rintro ⟨-, hwait, hpassed⟩
    rcases hl with h | h
    · exact absurd (hwait.symm.trans h) (by decide)
    · omega
  rw [chooseRequester, if_neg hlink, if_pos ⟨hp, hw, hc⟩]

/-- With nobody at the patience the order is FORWARD, LINK, SWEEP (R115). -/
theorem chooseRequester_inOrder {p : Nat} {a : Arbiter}
    (h : p = 0 ∨ ((a.waitLink = false ∨ a.linkPassed < p) ∧ (a.waitSweep = false ∨ a.sweepPassed < p))) :
    chooseRequester p a =
      if a.waitForward = true then some .forward else if a.waitLink = true then some .link
      else if a.waitSweep = true then some .sweep else none := by
  have hlink : ¬ (p ≠ 0 ∧ a.waitLink = true ∧ p ≤ a.linkPassed) := by grind
  have hsweep : ¬ (p ≠ 0 ∧ a.waitSweep = true ∧ p ≤ a.sweepPassed) := by grind
  rw [chooseRequester, if_neg hlink, if_neg hsweep]

/-- The arbiter after the decision that follows the freeing of the port (R114 to R116). -/
theorem freePort_arbiter_of_choice {s : State} {r : Requester} (b : Bool)
    (h : chooseRequester s.control.config.patience s.arbiter = some r) :
    (freePort b s).arbiter = grantedTo r (passOver r { s.arbiter with owner := none }) := by
  have hfreed : chooseRequester s.control.config.patience { s.arbiter with owner := none } = some r := h
  simp [freePort, decideGrant_arbiter, hfreed]

/-- The counts of the requester granted and of the ones passed over (R116). -/
theorem counts_grantedTo_passOver (r : Requester) (a : Arbiter) :
    (grantedTo r (passOver r a)).linkPassed =
        (if r = .link then 0 else if a.waitLink = true then min (a.linkPassed + 1) 255 else a.linkPassed) ∧
      (grantedTo r (passOver r a)).sweepPassed =
        (if r = .sweep then 0 else if a.waitSweep = true then min (a.sweepPassed + 1) 255 else a.sweepPassed) := by
  cases r with
  | forward => simp [grantedTo, passOver, raiseCount]
  | link => simp [grantedTo, passOver, raiseCount]
  | sweep => simp [grantedTo, passOver, raiseCount]

/-- Settles O28: the branches of the choice, and the arbiter that the decision leaves. -/
theorem grantDecisionOrder : Obligations.GrantDecisionOrder := by
  unfold Obligations.GrantDecisionOrder
  refine ⟨fun p a => chooseRequester_link, fun p a => chooseRequester_sweep, fun p a => chooseRequester_inOrder,
    fun s b r hr => ?_⟩
  rw [freePort_arbiter_of_choice b hr]
  exact ⟨(grantedTo_spec r _).1, counts_grantedTo_passOver r _⟩

end Sys2Proof.Proofs

namespace Sys2Proof.Proofs

open Sys2Proof.Machine

set_option Elab.async false

/-! ## The begin of an access -/

/-- At an idle port the access is issued at once (R114, R120). -/
theorem beginAccess_of_idle {s : State} (h : portIdle s.arbiter = true) (job : AccessJob) :
    beginAccess job s = issueReported (jobRequest job)
      (((await .access s).withArbiter { s.arbiter with owner := some .link, linkPassed := 0 }).withAccess
        (.outstanding job)) := by
  have hwait : s.arbiter.waitLink = false := ((portIdle_iff _).mp h).2 .link
  have hgranted : grantedTo .link s.arbiter = { s.arbiter with owner := some .link, linkPassed := 0 } := by
    simp only [grantedTo, ← hwait]
  show (if portIdle s.arbiter then _ else _) = _
  rw [if_pos h, ← hgranted]
  rfl

/-- At a busy port LINK waits (R114). -/
theorem beginAccess_of_busy {s : State} (h : portIdle s.arbiter = false) (job : AccessJob) :
    beginAccess job s =
      ((await .access s).withAccess (.waitGrant job)).withArbiter { s.arbiter with waitLink := true } := by
  show (if portIdle s.arbiter then _ else _) = _
  rw [if_neg (by simp [h])]
  rfl

/-- What becomes of a link access that is presented: its request at an idle port, LINK's wait at a busy one, and every
other unit as it was. -/
structure AccessPresented (l : LinkInterface) (job : AccessJob) (s t : State) : Prop where
  link : t.link = l
  table : t.table = s.table
  store : t.store = s.store
  forward : t.forward = s.forward
  capture : t.capture = s.capture
  control : t.control = s.control
  pins : t.pins = s.pins
  atIdle : portIdle s.arbiter = true → t.access = .outstanding job ∧
    t.port = { s.port with outstanding := issued (jobRequest job) s } ∧
    t.arbiter = { s.arbiter with owner := some .link, linkPassed := 0 } ∧
    t.sweep = match jobRequest job with | .read _ _ => s.sweep | .write a ws => (reportWrite a ws s).sweep
  atBusy : portIdle s.arbiter = false → t.access = .waitGrant job ∧ t.port = s.port ∧ t.sweep = s.sweep ∧
    t.arbiter = { s.arbiter with waitLink := true }

/-- An access that a command presents at its start leaves the forwarding path alone at either port. -/
theorem beginAccess_forward (job : AccessJob) (s : State) : (beginAccess job s).forward = s.forward := by
  cases h : portIdle s.arbiter with
  | true => rw [beginAccess_of_idle h]; simp
  | false => rw [beginAccess_of_busy h]; simp

/-- A memory command that presents its access at its start. -/
theorem beginAccess_started (q : Byte) (c : Command) (job : AccessJob) (s : State) :
    AccessPresented (waitingLink q c .access s.link) job s (beginAccess job (startedState (queuedOf q c) s)) where
  link := by simp [beginAccess]; rfl
  table := by simp
  store := by simp
  forward := beginAccess_forward job _
  capture := by simp
  control := by simp
  pins := by simp
  atIdle h := by
    rw [beginAccess_of_idle (s := startedState (queuedOf q c) s) h]
    exact ⟨by simp, by simp [issued], by simp, issueReported_sweep_eq _ (by simp)⟩
  atBusy h := by
    rw [beginAccess_of_busy (s := startedState (queuedOf q c) s) h]
    exact ⟨rfl, rfl, rfl, rfl⟩

/-- A range of 1 to 8 words of the space in one block passes the checks (R121). -/
theorem accessRange_of_inOneBlock {a n : Nat} (ha : a ≤ 4194303) (hn : 1 ≤ n) (hn8 : n ≤ 8)
    (hb : a / 8 = (a + n - 1) / 8) : accessRange a n = true := by
  simp only [accessRange, inOneBlock, Config.spaceWords, Config.blockWords, Bool.and_eq_true, decide_eq_true_eq,
    beq_iff_eq]
  omega

/-- The commands that go to the memory in any part state past STARTING, as the job each one begins (R122, R123, R126). -/
inductive Begins : Command → AccessJob → Prop where
  | readRaw {a n : Nat} : accessRange a n = true → Begins (.readRaw a n) (.readRaw a n)
  | writeRaw {a : Nat} {ws : List WriteWord} : accessRange a ws.length = true → Begins (.writeRaw a ws) (.writeRaw a ws)
  | writeVerify {a : Nat} {w : WriteWord} : a ≤ 4194303 → Begins (.writeVerify a w) (.writeVerify a w .read)

theorem runCommand_of_begins {c : Command} {job : AccessJob} (h : Begins c job) {s : State}
    (hp : s.control.part ≠ .starting) : runCommand c s = beginAccess job s := by
  cases h with
  | readRaw hr =>
    show runReadRaw _ _ s = _
    rw [runReadRaw, unlessStarting_past hp, if_pos hr]
  | writeRaw hr =>
    show runWriteRaw _ _ s = _
    rw [runWriteRaw, unlessStarting_past hp, if_pos hr]
  | writeVerify ha =>
    show runWriteVerify _ _ s = _
    rw [runWriteVerify, unlessStarting_past hp, if_pos (by simp only [Config.spaceWords]; omega)]

/-- At a ready link the row of such a command presents its access. -/
theorem exec_of_begins {i : Instr} {q : Byte} {c : Command} {job : AccessJob} (h : Begins c job)
    (hi : i.command = some (q, c)) {s : State} (hr : Ready s) :
    ∃ t, exec i s = .next t ∧ AccessPresented (waitingLink q c .access s.link) job s t :=
  ⟨_, (exec_of_ready c hr hi).trans (congrArg _ (runCommand_of_begins h (started_past hr _))),
    beginAccess_started q c job s⟩

/-- Settles O50: each of the three commands begins its job, and the begin of an access is the same for all. -/
theorem memoryCommandsBegin : Obligations.MemoryCommandsBegin := by
  intro s q i c job hr hcase
  have hbegins : i.command = some (q, c) ∧ Begins c job := by
    rcases hcase with ⟨a, n, ha, hn, hn8, hb, rfl, rfl, rfl⟩ | ⟨a, ws, ha, hn, hn8, hb, rfl, rfl, rfl⟩ |
      ⟨a, w, ha, rfl, rfl, rfl⟩
    · exact ⟨rfl, .readRaw (accessRange_of_inOneBlock ha hn hn8 hb)⟩
    · exact ⟨rfl, .writeRaw (accessRange_of_inOneBlock ha hn hn8 hb)⟩
    · exact ⟨rfl, .writeVerify ha⟩
  obtain ⟨t, hexec, ht⟩ := exec_of_begins hbegins.2 hbegins.1 hr
  refine ⟨t, hexec, ht.link, ht.table, ht.store, ht.forward, ht.capture, ht.control, ht.pins, fun hidle => ?_, ht.atBusy⟩
  obtain ⟨haccess, hport, harbiter, hsweep⟩ := ht.atIdle hidle
  exact ⟨haccess, hport, harbiter, fun a n hreq => by rw [hsweep, hreq], fun a ws hreq => by rw [hsweep, hreq]⟩

end Sys2Proof.Proofs

namespace Sys2Proof.Proofs

open Sys2Proof.Machine

set_option Elab.async false

/-! ## The sources of a view read -/

/-- The view and the predicted outcome that READ_VIEW fixes at its start, by the part state (R124). -/
def viewFixed (a n : Nat) (s : State) (view : List ViewWord) (predicted : RequestOutcome) : Prop :=
  s.control.part = .bypass ∧ view = bypassView n ∧ predicted = .okay ∨
    s.control.part = .active ∧ view = (decideView a n s).words.map (viewWord (takeSnapshot s.table)) ∧
      predicted = predictOutcome (decideView a n s)

theorem takeReadView_of_fixed {a n : Nat} {s : State} {view : List ViewWord} {predicted : RequestOutcome}
    (h : viewFixed a n s view predicted) : takeReadView a n s = proceedView a n view predicted s := by
  unfold takeReadView
  rcases h with ⟨hpart, rfl, rfl⟩ | ⟨hpart, rfl, rfl⟩
  · rw [if_neg (by simp [hpart])]
  · rw [if_pos hpart]; rfl

/-- The start of a command leaves all that the view is fixed from. -/
theorem runReadView_started {a n : Nat} {s : State} {view : List ViewWord} {predicted : RequestOutcome}
    (hr : Ready s) (hrange : accessRange a n = true) (h : viewFixed a n s view predicted) (q : QueuedCommand) :
    runCommand (.readView a n) (startedState q s) = proceedView a n view predicted (startedState q s) := by
  show runReadView a n _ = _
  rw [runReadView, unlessStarting_past (started_past hr q), if_pos hrange]
  exact takeReadView_of_fixed h

theorem proceedView_of_stored {view : List ViewWord} (h : viewNeedsMemory view = false) (a n : Nat)
    (predicted : RequestOutcome) (s : State) :
    proceedView a n view predicted s = complete .ok (viewPayload predicted view []) s := if_neg (by simp [h])

theorem proceedView_of_memory {view : List ViewWord} (h : viewNeedsMemory view = true) (a n : Nat)
    (predicted : RequestOutcome) (s : State) :
    proceedView a n view predicted s = beginAccess (.readView a n view predicted) s := if_pos h

/-- A view whose words all stand whole in the store is answered at once (R125). -/
theorem exec_readView_of_stored {a n : Nat} {s : State} {view : List ViewWord} {predicted : RequestOutcome}
    (hr : Ready s) (hrange : accessRange a n = true) (hfixed : viewFixed a n s view predicted)
    (h : viewNeedsMemory view = false) (q : Byte) :
    exec (.readView q a n) s = .next (answered q .ok (viewPayload predicted view []) s) :=
  exec_of_answer (.readView a n) hr
    ((runReadView_started hr hrange hfixed _).trans (proceedView_of_stored h a n predicted _))

/-- A view with a word that needs memory presents one READ of the whole range (R125). -/
theorem exec_readView_of_memory {a n : Nat} {s : State} {view : List ViewWord} {predicted : RequestOutcome}
    (hr : Ready s) (hrange : accessRange a n = true) (hfixed : viewFixed a n s view predicted)
    (h : viewNeedsMemory view = true) (q : Byte) :
    ∃ t, exec (.readView q a n) s = .next t ∧
      AccessPresented (waitingLink q (.readView a n) .access s.link) (.readView a n view predicted) s t :=
  ⟨_, (exec_of_ready (.readView a n) hr).trans (congrArg _ ((runReadView_started hr hrange hfixed _).trans
    (proceedView_of_memory h a n predicted _))), beginAccess_started q _ _ s⟩

/-! ### The source of a word -/

theorem decideView_words (a n : Nat) (s : State) :
    (decideView a n s).words = (List.range n).map (fun j =>
      fetchWord s.store (takeSnapshot s.table) (decideWord (takeSnapshot s.table) .read (a + j))) := by
  simp only [decideView, fetchWords, decideRequest, decideWords, requestAddrs, requestLen, requestAddr, requestKind,
    List.map_map]
  rfl

/-- The fetch leaves which slot decided the word, hence its configuration. -/
theorem deciderConfig_fetchWord (m : Store) (snap : List SnapSlot) (d : WordDecision) :
    deciderConfig snap (fetchWord m snap d) = deciderConfig snap d := by
  rw [deciderConfig, fetchWord_decider, deciderConfig]

section
variable {snap : List SnapSlot} {d : WordDecision} {c : SlotConfig} (h : deciderConfig snap d = some c)
include h

/-- A PATCH or SHADOW word has its store word fetched (R33). -/
theorem fetchWord_of_storeRange (m : Store) (hm : hasStoreRange c.mode = true) :
    fetchWord m snap d = { d with fetched := some (storeRead m (storeIndex c d.addr)) } := by
  simp only [fetchWord, h, if_pos hm]

theorem viewWord_fetched (m : Store) (hm : hasStoreRange c.mode = true) :
    viewWord snap (fetchWord m snap d) = storeSource c (storeRead m (storeIndex c d.addr)) := by
  have hdecider : deciderConfig snap (fetchWord m snap d) = some c := (deciderConfig_fetchWord m snap d).trans h
  rw [viewWord, hdecider, fetchWord_of_storeRange h m hm]

theorem viewWord_guarded (m : Store) (hf : d.fetched = none) (hg : c.mode = .guard) :
    viewWord snap (fetchWord m snap d) = memoryWord .guarded := by
  have hkept : fetchWord m snap d = d := by simp [fetchWord, h, hg, hasStoreRange]
  simp only [hkept, viewWord, h, hf, if_pos hg]

end

theorem viewWord_undecided {snap : List SnapSlot} {d : WordDecision} (h : deciderConfig snap d = none) (m : Store) :
    viewWord snap (fetchWord m snap d) = memoryWord .memory := by
  rw [viewWord, (deciderConfig_fetchWord m snap d).trans h]

theorem storeSource_bad {w : StoreWord} (h : w.bad = true) (c : SlotConfig) : storeSource c w = memoryWord .storeFault :=
  if_pos h

theorem storeSource_good {w : StoreWord} (h : w.bad = false) (c : SlotConfig) :
    storeSource c w = { source := .store, lanes := if c.mode = .patch then c.lanes else allLanes, data := w.data } :=
  if_neg (by simp [h])

/-! ### The predicted outcome -/

theorem predictOutcome_refused {d : Decided} (h : ∃ w ∈ d.words, decidedBy d.snapshot .guard w = true) :
    predictOutcome d = .refused := if_pos (List.any_eq_true.mpr h)

section
variable {d : Decided} (h : ∀ w ∈ d.words, decidedBy d.snapshot .guard w = false)
include h

/-- Without a guarded word the outcome turns on the SHADOW words alone (R124). -/
theorem predictOutcome_unguarded : predictOutcome d = if shadowFaulted d then .storeFault else .okay :=
  if_neg (by simpa using h)

theorem predictOutcome_storeFault
    (hs : ∃ w ∈ d.words, decidedBy d.snapshot .shadow w = true ∧ ∃ m, w.fetched = some m ∧ m.bad = true) :
    predictOutcome d = .storeFault := by
  obtain ⟨w, hw, hshadow, m, hfetched, hbad⟩ := hs
  have hfaulted : shadowFaulted d = true := List.any_eq_true.mpr ⟨w, hw, by simp [hshadow, faulted, hfetched, hbad]⟩
  rw [predictOutcome_unguarded h, if_pos hfaulted]

theorem predictOutcome_okay
    (hs : ∀ w ∈ d.words, decidedBy d.snapshot .shadow w = true → ∀ m, w.fetched = some m → m.bad = false) :
    predictOutcome d = .okay := by
  have hgood : shadowFaulted d = false := List.any_eq_false.mpr fun w hw hbad => by
    obtain ⟨hshadow, hfault⟩ := Bool.and_eq_true_iff.mp hbad
    obtain ⟨m, hfetched, hm⟩ := (Option.any_eq_true ..).mp hfault
    exact absurd ((hs w hw hshadow m hfetched).symm.trans hm) (by decide)
  rw [predictOutcome_unguarded h, hgood]
  rfl

end

/-- Settles O51: the view as it is fixed at the start, the source of each word, and the predicted outcome. -/
theorem viewReadFixesItsSources : Obligations.ViewReadFixesItsSources := by
  refine ⟨fun s q a n view predicted hr ha hn hn8 hb hfixed => ?_, fun a n s => ⟨rfl, decideView_words a n s⟩,
    fun m snap d c hc hmode => ?_, fun m snap d hf => ?_, fun d => ?_⟩
  · have hrange := accessRange_of_inOneBlock ha hn hn8 hb
    refine ⟨fun h => exec_readView_of_stored hr hrange hfixed h q, fun h => ?_⟩
    obtain ⟨t, hexec, ht⟩ := exec_readView_of_memory hr hrange hfixed h q
    refine ⟨t, hexec, ht.link, ht.table, ht.store, ht.control, ht.capture, ht.forward, ?_, fun hidle => ?_, fun hbusy => ?_⟩
    · cases hport : portIdle s.arbiter with
      | true => exact (ht.atIdle hport).2.2.2
      | false => exact (ht.atBusy hport).2.2.1
    · obtain ⟨haccess, hport, -, -⟩ := ht.atIdle hidle
      exact ⟨haccess, congrArg Port.outstanding hport⟩
    · obtain ⟨haccess, hport, -, -⟩ := ht.atBusy hbusy
      exact ⟨haccess, hport⟩
  · have hm := (hasStoreRange_iff).mpr hmode
    refine ⟨fetchWord_of_storeRange hc m hm, fun hbad => ?_, fun hgood => ?_⟩
    · exact (viewWord_fetched hc m hm).trans (storeSource_bad hbad c)
    · exact (viewWord_fetched hc m hm).trans (storeSource_good hgood c)
  · exact ⟨fun hnone => viewWord_undecided hnone m, fun c hc hg => viewWord_guarded hc m hf hg⟩
  · exact ⟨predictOutcome_refused, fun hunguarded =>
      ⟨predictOutcome_storeFault hunguarded, predictOutcome_okay hunguarded⟩⟩

end Sys2Proof.Proofs

namespace Sys2Proof.Proofs

open Sys2Proof.Machine

set_option Elab.async false

/-! ## The end of an access -/

/-- The completion of the command that executes: its entry is held and the next command is the head (R160). -/
theorem complete_of_executes {s : State} {e : Executing} {q : QueuedCommand} {rest : List QueuedCommand}
    {held : List Entry} (h : Executes s e q rest held) (st : Status) (p : List Byte) :
    complete st p s = s.withLink (completedLink s.link rest held ⟨q.seq, st, p⟩) := by
  obtain ⟨hcommands, -, hresponses, hheld⟩ := h
  rw [complete, hcommands]
  simp only [hresponses, fillReserved_append hheld, completedLink]

/-- What an ended access leaves: its command completed, the unit idle, the port given to the next or left free, and every
other unit as it was. -/
structure AccessFinished (b : Bool) (l : LinkInterface) (s t : State) : Prop where
  link : t.link = l
  table : t.table = s.table
  store : t.store = s.store
  control : t.control = s.control
  capture : t.capture = s.capture
  access : t.access = .idle
  aborted : t.port.aborted = b
  free : NobodyWaits s.arbiter → t.port = { outstanding := none, aborted := b } ∧ t.arbiter.owner = none ∧
    t.forward = s.forward ∧ t.sweep = s.sweep

section
variable {s : State} {q : QueuedCommand} {rest : List QueuedCommand} {held : List Entry}
  (h : Executes s .access q rest held)
include h

theorem finishAccess_finished (b : Bool) (st : Status) (p : List Byte) :
    AccessFinished b (completedLink s.link rest held ⟨q.seq, st, p⟩) s (finishAccess b st p s) where
  link := by
    rw [finishAccess, freePort_link, complete_of_executes (s := s.withAccess .idle) h]
    rfl
  table := by simp
  store := by simp
  control := by simp
  capture := by simp
  access := (freePort_moves _ _).access_idle_iff.mpr (by rw [complete_access]; rfl)
  aborted := freePort_aborted _ _
  free hw := by
    rw [finishAccess, freePort_of_none_waiting b (by simpa using hw)]
    exact ⟨rfl, rfl, by simp, by simp⟩

/-- An event that ends the access with the cause of a failure raised (R118, R127). -/
theorem failedAccess_finished (c : Cause) (b : Bool) (st : Status) (p : List Byte) :
    AccessFinished b (completedLink s.link rest held ⟨q.seq, st, p⟩) (raise c s) (finishAccess b st p (raise c s)) :=
  finishAccess_finished (s := raise c s) h b st p

end

/-- An event that leaves the next command considered is the row COMMAND_START at the state it completed (R160). -/
theorem commandStart_of_considered {i : Instr} {s t : State} (h : exec i s = .next (considerNext t)) :
    exec i s = .next (considerNext t) ∧ exec .commandStart t = .next (considerNext t) ∧
      (t.link.commands = [] → considerNext t = t) :=
  ⟨h, rfl, considerNext_of_empty⟩

/-! ## The rows that end an access -/

/-- The memory's answer to the access outstanding, with the next command considered behind it (R120, R160). -/
theorem exec_linkAccessResponse_outstanding {s : State} {job : AccessJob} {resp : BusResponse}
    (hjob : s.access = .outstanding job) (hfits : answers (jobRequest job) resp = true) :
    exec (.linkAccessResponse resp) s = .next (considerNext (linkAccessAnswered job resp s)) := by
  simp [exec, execLinkAccessResponse, hjob, hfits]

/-- The timeout of the access outstanding (R118). -/
theorem exec_timeout_of_link {s : State} {job : AccessJob} (hjob : s.access = .outstanding job)
    (howner : s.arbiter.owner = some .link) :
    exec .downstreamTimeoutExpiry s = .next (considerNext (linkTimedOut job s)) := by
  have hexpire : expireTimeout s = linkTimedOut job s := by simp [expireTimeout, howner, hjob]
  exact congrArg (fun t => Host.Outcome.next (considerNext t)) hexpire

/-! ## The memory's OKAY -/

/-- The words that end a memory command, with the payload that it answers (R122, R123, R125, R126). -/
def endsWith (job : AccessJob) (data : List Word) (payload : List Byte) : Prop :=
  (∃ a n, job = .readRaw a n ∧ payload = data.flatMap wordBytes) ∨
    (∃ a n v p, job = .readView a n v p ∧ payload = viewPayload p v data) ∨
    (∃ a ws, job = .writeRaw a ws ∧ payload = []) ∨
    (∃ a w old back, job = .writeVerify a w (.readBack old) ∧ data = [back] ∧
      payload = wordBytes old ++ wordBytes back ++ wordBytes ((w.data ^^^ back) &&& laneBits w.lanes))

/-- The last OKAY of a memory command answers it (R122, R123, R125, R126). -/
theorem linkAccessAnswered_of_endsWith {job : AccessJob} {data : List Word} {payload : List Byte}
    (h : endsWith job data payload) (s : State) :
    linkAccessAnswered job (.okay data) s = finishAccess false .ok payload s := by
  rcases h with ⟨a, n, rfl, rfl⟩ | ⟨a, n, v, p, rfl, rfl⟩ | ⟨a, ws, rfl, rfl⟩ | ⟨a, w, old, back, rfl, rfl, rfl⟩
  · rfl
  · rfl
  · rfl
  · rfl

/-- WRITE_VERIFY's next step leaves the link interface, so that no command starts behind it (R158, R117). -/
theorem considerNext_nextVerifyStep {s : State} (h : StartSound s) (job : AccessJob) :
    considerNext (nextVerifyStep job s) = nextVerifyStep job s :=
  considerNext_of_not (mayStart_of_link h (by simp [nextVerifyStep]))

/-- WRITE_VERIFY's read answered: its write is issued under the same grant (R117, R126). -/
theorem exec_verifyRead_answered {s : State} {a : Nat} {w : WriteWord} (hjob : s.access = .outstanding (.writeVerify a w .read))
    (h : StartSound s) (old : Word) :
    exec (.linkAccessResponse (.okay [old])) s = .next (nextVerifyStep (.writeVerify a w (.write old)) s) :=
  (exec_linkAccessResponse_outstanding hjob rfl).trans (congrArg _ (considerNext_nextVerifyStep h _))

/-- WRITE_VERIFY's write answered: its read back is issued under the same grant (R117, R126). -/
theorem exec_verifyWrite_answered {s : State} {a : Nat} {w : WriteWord} {old : Word}
    (hjob : s.access = .outstanding (.writeVerify a w (.write old))) (h : StartSound s) :
    exec (.linkAccessResponse (.okay [])) s = .next (nextVerifyStep (.writeVerify a w (.readBack old)) s) :=
  (exec_linkAccessResponse_outstanding hjob rfl).trans (congrArg _ (considerNext_nextVerifyStep h _))

/-- Settles O52: the access that completes its command, and WRITE_VERIFY's two steps on. -/
theorem linkAccessAnswered : Obligations.LinkAccessAnswered := by
  refine ⟨fun s q rest held job data payload hex hjob hfits hends => ?_, fun s a w old hjob hstart => ?_,
    fun s a w old hjob hstart => ?_⟩
  · have hexec := exec_linkAccessResponse_outstanding hjob hfits
    rw [linkAccessAnswered_of_endsWith hends] at hexec
    have ht := finishAccess_finished hex false .ok payload
    obtain ⟨hrow, hstart, hempty⟩ := commandStart_of_considered hexec
    exact ⟨_, _, hrow, hstart, fun hrest => hempty ((congrArg LinkInterface.commands ht.link).trans hrest), ht.link,
      ht.table, ht.store, ht.control, ht.capture, ht.access, ht.free⟩
  · exact ⟨_, exec_verifyRead_answered hjob hstart old, by simp [nextVerifyStep], by simp [nextVerifyStep, jobRequest, issued],
      by simp [nextVerifyStep], by simp [nextVerifyStep], by simp, by simp, by simp, issueReported_sweep_eq (.write a [w]) rfl⟩
  · exact exec_verifyWrite_answered hjob hstart

/-! ## Failures -/

/-- What the response to a failed access carries, by the step that failed (R127). -/
theorem failurePayload_eq {job : AccessJob} {payload : List Byte}
    (h : (∃ a n, job = .readRaw a n ∧ payload = []) ∨ (∃ a n v p, job = .readView a n v p ∧ payload = []) ∨
      (∃ a ws, job = .writeRaw a ws ∧ payload = []) ∨ (∃ a w, job = .writeVerify a w .read ∧ payload = [1]) ∨
      (∃ a w old, job = .writeVerify a w (.write old) ∧ payload = 2 :: wordBytes old) ∨
      (∃ a w old, job = .writeVerify a w (.readBack old) ∧ payload = 3 :: wordBytes old)) :
    failurePayload job = payload := by
  rcases h with ⟨a, n, rfl, rfl⟩ | ⟨a, n, v, p, rfl, rfl⟩ | ⟨a, ws, rfl, rfl⟩ | ⟨a, w, rfl, rfl⟩ | ⟨a, w, old, rfl, rfl⟩ |
    ⟨a, w, old, rfl, rfl⟩
  · rfl
  · rfl
  · rfl
  · rfl
  · rfl
  · rfl

/-- Settles O53: an ERROR and a timeout end the command alike, with their cause raised. -/
theorem failedLinkAccessAnswered : Obligations.FailedLinkAccessAnswered := by
  intro s q rest held job payload hex hjob hpayload
  obtain rfl := failurePayload_eq hpayload
  refine ⟨?_, fun howner => ?_⟩
  · have ht := failedAccess_finished hex .downError false .memError (failurePayload job)
    obtain ⟨hrow, hstart, hempty⟩ := commandStart_of_considered (exec_linkAccessResponse_outstanding hjob (resp := .error) rfl)
    refine ⟨_, _, hrow, hstart, fun hrest => hempty ((congrArg LinkInterface.commands ht.link).trans hrest), ht.link,
      ht.control, ht.access, ht.table, ht.store, fun hw => ?_⟩
    obtain ⟨hport, hfree, -, -⟩ := ht.free hw
    exact ⟨hport, hfree⟩
  · have ht := failedAccess_finished hex .downTimeout true .timeout (failurePayload job)
    obtain ⟨hrow, hstart, hempty⟩ := commandStart_of_considered (exec_timeout_of_link hjob howner)
    refine ⟨_, _, hrow, hstart, fun hrest => hempty ((congrArg LinkInterface.commands ht.link).trans hrest), ht.link,
      ht.control, ht.access, ht.table, ht.store, ht.aborted, fun hw => ?_⟩
    obtain ⟨hport, hfree, -, -⟩ := ht.free hw
    exact ⟨congrArg Port.outstanding hport, hfree⟩

end Sys2Proof.Proofs

namespace Sys2Proof.Proofs

open Sys2Proof.Machine

set_option Elab.async false

/-! ## The next block of a sweep

A block is taken in hand by a start command, by SWEEP_RESUME and by the completion of the block before it; what is taken
depends on the record and on the store alone. -/

/-- The next block of a record, with its words, in one of its phases (R134). -/
def nextBlock (r : SweepRecord) (words : List Word) (p : BlockPhase) : Block :=
  ⟨r.start + r.done, blockLength r, words, p⟩

/-- The words that a block is taken in hand with: those of a PUSH stand good in the store, a CHECK and a FILL bring none
(R134, R137). -/
inductive TakesWords (m : Store) (r : SweepRecord) : List Word → Prop where
  | read : (∀ o v, r.work ≠ .push o v) → TakesWords m r []
  | push {o : Nat} {v : Option Readback} : r.work = .push o v →
      (∀ j < blockLength r, (storeRead m (o + r.done + j)).bad = false) →
      TakesWords m r ((List.range (blockLength r)).map fun j => (storeRead m (o + r.done + j)).data)

/-- The lowest bad store word of a PUSH's next block (R137). -/
def MeetsBad (m : Store) (r : SweepRecord) (j : Nat) : Prop :=
  ∃ o v, r.work = .push o v ∧ j < blockLength r ∧ (storeRead m (o + r.done + j)).bad = true ∧
    ∀ i < j, (storeRead m (o + r.done + i)).bad = false

theorem blockRequest_of_read {work : SweepWork} (h : ∀ o v, work ≠ .push o v) (b : Block) :
    blockRequest work b = .read b.addr b.count := by
  cases work with
  | push o v => exact absurd rfl (h o v)
  | _ => rfl

/-! ### The end of a sweep -/

theorem endSweep_of_record {s : State} {r : SweepRecord} (h : s.sweep.record = some r) (o : SweepOutcome) :
    endSweep o s = { s with
      control := { s.control with causes := s.control.causes ||| causeBit .sweepEnd }
      sweep := { state := .idle, record := some (endedRecord o r), block := none } } := by
  rw [endSweep, h]; rfl

theorem failSweep_of_record {s : State} {r : SweepRecord} (h : s.sweep.record = some r) (c : FailCause) (a : Nat) :
    failSweep c a s = { s with
      control := { s.control with causes := s.control.causes ||| causeBit .sweepEnd }
      sweep := { state := .idle, record := some { r with outcome := .failed, fail := some (c, a) }, block := none } } := by
  have hrec : (updateRecord (fun r => { r with fail := some (c, a) }) s).sweep.record =
      some { r with fail := some (c, a) } := by rw [updateRecord_sweep, h]; rfl
  rw [failSweep, endSweep_of_record hrec]; rfl

/-! ### The block taken in hand -/

/-- At an idle port the engine is granted at once (R114). -/
theorem present_sweep_of_idle {s : State} (h : portIdle s.arbiter = true) :
    present .sweep s = issueSweep (s.withArbiter { s.arbiter with owner := some .sweep, sweepPassed := 0 }) := by
  have hwait : s.arbiter.waitSweep = false := ((portIdle_iff _).mp h).2 .sweep
  have hgranted : grantedTo .sweep s.arbiter = { s.arbiter with owner := some .sweep, sweepPassed := 0 } := by
    simp only [grantedTo, ← hwait]
  rw [present_eq, if_pos h, grant, hgranted]

/-- At an idle port the first access of the block is issued at once (R114, R134). -/
theorem presentBlock_of_idle {s : State} {r : SweepRecord} (hrec : s.sweep.record = some r)
    (h : portIdle s.arbiter = true) (words : List Word) :
    presentBlock r words s = { s with
      sweep := { state := s.sweep.state, record := some r, block := some (nextBlock r words .access) }
      port := { s.port with outstanding := issued (blockRequest r.work (nextBlock r words .access)) s }
      arbiter := { s.arbiter with owner := some .sweep, sweepPassed := 0 } } := by
  rw [presentBlock, present_sweep_of_idle (by exact h)]
  simp only [issueSweep, State.withArbiter_sweep, State.withSweep_sweep, hrec]
  rfl

/-- At a busy port SWEEP waits (R114). -/
theorem presentBlock_of_busy {s : State} {r : SweepRecord} (hrec : s.sweep.record = some r)
    (h : portIdle s.arbiter = false) (words : List Word) :
    presentBlock r words s = { s with
      sweep := { state := s.sweep.state, record := some r, block := some (nextBlock r words .waiting) }
      arbiter := { s.arbiter with waitSweep := true } } := by
  rw [presentBlock, ← hrec, present_eq, if_neg (by simp [h])]; rfl

theorem takeBlock_of_words {s : State} {r : SweepRecord} (hrec : s.sweep.record = some r) {words : List Word}
    (h : TakesWords s.store r words) : takeBlock s = presentBlock r words s := by
  simp only [takeBlock, hrec]
  cases h with
  | read hread =>
    split
    next o v hwork => exact absurd hwork (hread o v)
    next => rfl
  | @push o v hwork hgood =>
    have hnone : (storeReadRange s.store (o + r.done) (blockLength r)).findIdx? (·.bad) = none := by
      simpa [storeReadRange] using hgood
    simp only [hwork, hnone]
    rw [storeReadRange, List.map_map]; rfl

/-- A bad store word fails the sweep at the address that corresponds to it, and nothing is presented (R137). -/
theorem takeBlock_of_bad {s : State} {r : SweepRecord} (hrec : s.sweep.record = some r) {j : Nat}
    (h : MeetsBad s.store r j) :
    takeBlock s = { s with
      control := { s.control with causes := s.control.causes ||| causeBit .storeParity ||| causeBit .sweepEnd }
      sweep := { state := .idle
                 record := some { r with outcome := .failed, fail := some (.storeParity, r.start + r.done + j) }
                 block := none } } := by
  obtain ⟨o, v, hwork, hj, hbad, hlowest⟩ := h
  have hfound : (storeReadRange s.store (o + r.done) (blockLength r)).findIdx? (·.bad) = some j := by
    refine List.findIdx?_eq_some_iff_getElem.mpr ⟨by simpa [storeReadRange] using hj, ?_, fun i hi => ?_⟩
    · simpa [storeReadRange] using hbad
    · simpa [storeReadRange] using hlowest i hi
  have htake : takeBlock s = failSweep .storeParity (r.start + r.done + j) (raise .storeParity s) := by
    simp only [takeBlock, hrec, hwork, hfound]
  rw [htake, failSweep_of_record (s := raise .storeParity s) hrec]; rfl

end Sys2Proof.Proofs

namespace Sys2Proof.Proofs

open Sys2Proof.Machine

set_option Elab.async false

/-! ## Sweep commands at a ready link -/

/-- A command whose block makes a change of other units before its completion. -/
theorem exec_of_completion {i : Instr} {q : Byte} (c : Command) {s u : State} (hr : Ready s) {st : Status} {p : List Byte}
    (hc : runCommand c (startedState (queuedOf q c) s) = complete st p u)
    (hu : u.link = (startedState (queuedOf q c) s).link) (h : i.command = some (q, c) := by rfl) :
    exec i s = .next (u.withLink (answered q st p s).link) := by
  obtain ⟨-, hcommands, hexecuting, -, hheld⟩ := hr.1
  have hlink : (answered q st p s).link =
      { s.link with
        commands := []
        executing := none
        responses := s.link.responses ++ [.held ⟨q, st, p⟩] } := by
    rw [answered, State.withLink_link, ← hcommands, ← hexecuting]
  rw [exec_of_ready c hr h, hc, complete_started hheld hu, hlink]; rfl

/-- A command that waits for the block in hand (R141, R143). -/
theorem exec_of_await {i : Instr} {q : Byte} (c : Command) {s : State} {e : Executing} (hr : Ready s)
    (hc : runCommand c (startedState (queuedOf q c) s) = await e (startedState (queuedOf q c) s))
    (h : i.command = some (q, c) := by rfl) :
    exec i s = .next { s with link := waitingLink q c e s.link } := by
  rw [exec_of_ready c hr h, hc]; rfl

/-- A command's OK with the engine changed, at a ready link. -/
theorem complete_ok_started {s : State} (hr : Ready s) (q : Byte) (c : Command) (e : SweepEngine) :
    complete .ok [] ((startedState (queuedOf q c) s).withSweep e) = (answered q .ok [] s).withSweep e := by
  rw [complete_withSweep, complete_startedState hr.1, queuedOf_seq]

/-! ### The block that an answered command takes in hand

A start command and SWEEP_RESUME answer OK and take the next block in hand, each with its own engine. -/

section
variable {s : State} {e : SweepEngine} {r : SweepRecord} (q : Byte) (hrec : e.record = some r)
include hrec

theorem takeBlock_answered_of_idle {words : List Word} (h : TakesWords s.store r words)
    (hport : portIdle s.arbiter = true) :
    takeBlock ((answered q .ok [] s).withSweep e) = answered q .ok [] { s with
      sweep := { state := e.state, record := some r, block := some (nextBlock r words .access) }
      port := { s.port with outstanding := issued (blockRequest r.work (nextBlock r words .access)) s }
      arbiter := { s.arbiter with owner := some .sweep, sweepPassed := 0 } } := by
  rw [takeBlock_of_words (s := (answered q .ok [] s).withSweep e) hrec h,
    presentBlock_of_idle (s := (answered q .ok [] s).withSweep e) hrec hport]
  rfl

theorem takeBlock_answered_of_busy {words : List Word} (h : TakesWords s.store r words)
    (hport : portIdle s.arbiter = false) :
    takeBlock ((answered q .ok [] s).withSweep e) = answered q .ok [] { s with
      sweep := { state := e.state, record := some r, block := some (nextBlock r words .waiting) }
      arbiter := { s.arbiter with waitSweep := true } } := by
  rw [takeBlock_of_words (s := (answered q .ok [] s).withSweep e) hrec h,
    presentBlock_of_busy (s := (answered q .ok [] s).withSweep e) hrec hport]
  rfl

theorem takeBlock_answered_of_bad {j : Nat} (h : MeetsBad s.store r j) :
    takeBlock ((answered q .ok [] s).withSweep e) = answered q .ok [] { s with
      control := { s.control with causes := s.control.causes ||| causeBit .storeParity ||| causeBit .sweepEnd }
      sweep := { state := .idle
                 record := some { r with outcome := .failed, fail := some (.storeParity, r.start + r.done + j) }
                 block := none } } := by
  rw [takeBlock_of_bad (s := (answered q .ok [] s).withSweep e) hrec h]
  rfl

end

/-! ### The start commands -/

theorem checkStart_busy {s : State} (hp : s.control.part ≠ .starting) (h : s.sweep.state ≠ .idle) (inRange : Bool)
    (f : State → State) : checkStart inRange f s = complete .busy [] s := by
  rw [checkStart, unlessStarting_past hp, if_pos h]

theorem checkStart_passes {s : State} (hp : s.control.part ≠ .starting) (hi : s.sweep.state = .idle) {inRange : Bool}
    (h : inRange = true) (f : State → State) : checkStart inRange f s = f s := by
  rw [checkStart, unlessStarting_past hp, if_neg (by simp [hi]), if_pos h]

theorem sweepRange_of_bounds {a n most : Nat} (ha : a < 4194304) (h1 : 1 ≤ n) (hn : n ≤ most) (han : a + n ≤ 4194304) :
    sweepRange a n most = true := by
  simp [sweepRange, Config.spaceWords, ha, h1, hn, han]

theorem copyRange_of_bounds {a n o : Nat} (ha : a < 4194304) (h1 : 1 ≤ n) (hn : n ≤ 4096) (han : a + n ≤ 4194304)
    (hon : o + n ≤ 4096) : copyRange a n o = true := by
  simp [copyRange, sweepRange_of_bounds ha h1 (show n ≤ Config.storeWords from hn) han, Config.storeWords, hon]

theorem fillConflict_of_lowest {t : List Slot} {o n i : Nat} (hi : i < 24) (hlive : (slotAt t i).status.state = .live)
    (hmeets : rangeMeets (slotAt t i).active o n = true)
    (h : ∀ j < i, (slotAt t j).status.state ≠ .live ∨ rangeMeets (slotAt t j).active o n = false) :
    fillConflict t o n = some i :=
  List.find?_range_eq_some.mpr ⟨by simp [hlive, hmeets], List.mem_range.mpr hi, by simpa [← imp_iff_not_or] using h⟩

theorem fillConflict_of_none {t : List Slot} {o n : Nat}
    (h : ∀ j < 24, (slotAt t j).status.state ≠ .live ∨ rangeMeets (slotAt t j).active o n = false) :
    fillConflict t o n = none :=
  List.find?_range_eq_none.mpr (by simpa [← imp_iff_not_or, Config.slotCount] using h)

/-- The start commands that pass their checks over a slot table, with the record that each starts from (R130 to R133). -/
inductive Starts (t : List Slot) : Command → SweepRecord → Prop where
  | check {a n : Nat} {e : Option Word} : sweepRange a n Config.spaceWords = true →
      Starts t (.sweepCheck a n e) (startedRecord a n (.check e 0 none))
  | fill {a n o : Nat} : copyRange a n o = true → fillConflict t o n = none →
      Starts t (.sweepFill a n o) (startedRecord a n (.fill o false))
  | push {a n o v : Nat} {b : Bool} : copyRange a n o = true → onOff v = some b →
      Starts t (.sweepPush o n a v) (startedRecord a n (.push o (startedReadback b)))

theorem runCommand_of_starts {s : State} {c : Command} {r : SweepRecord} (h : Starts s.table c r)
    (hp : s.control.part ≠ .starting) (hi : s.sweep.state = .idle) : runCommand c s = startSweep r s := by
  cases h with
  | check hrange => exact checkStart_passes hp hi hrange _
  | fill hrange hfree =>
    refine (checkStart_passes hp hi hrange _).trans ?_
    rw [takeSweepFill, hfree]
  | @push _ _ _ _ b hrange hverify =>
    refine (checkStart_passes hp hi (by rw [hrange, hverify]; rfl) _).trans ?_
    rw [hverify]
    cases b <;> rfl

/-- At a ready link a start command answers OK and takes its first block in hand (R130). -/
theorem exec_of_starts {i : Instr} {q : Byte} {c : Command} {s : State} {r : SweepRecord} (h : Starts s.table c r)
    (hi : i.command = some (q, c)) (hr : Ready s) (hidle : s.sweep.state = .idle) :
    exec i s = .next (takeBlock ((answered q .ok [] s).withSweep
      { state := .running, record := some r, block := none })) := by
  rw [exec_of_ready c hr hi, runCommand_of_starts (s := startedState (queuedOf q c) s) h (started_past hr _) hidle,
    startSweep, complete_ok_started hr]

/-- The verify flag of a PUSH as it stands in the record that it starts (R130, R133). -/
theorem startedReadback_of_onOff {v : Nat} (h : v ≤ 1) :
    ∃ b, onOff v = some b ∧ startedReadback b = if v = 1 then some ⟨0, none⟩ else none := by
  obtain rfl | rfl := Nat.le_one_iff_eq_zero_or_eq_one.mp h
  · exact ⟨false, rfl, rfl⟩
  · exact ⟨true, rfl, rfl⟩

/-- Settles O55: a busy engine, a conflict, the three commands that start, and a PUSH that meets a bad word at once. -/
theorem sweepStarts : Obligations.SweepStarts := by
  refine ⟨fun s q hr hbusy => ⟨fun a n e => ?_, fun a n o => ?_, fun a n o v => ?_⟩,
    fun s q a n o i hr hidle ha h1 hn han hon hi hlive hmeets hlowest => ?_,
    fun s q i a n work words first hr hidle ha h1 han hcase => ?_,
    fun s q a n o v j hr hidle ha h1 hn han hon hv hj hbad hlowest => ?_⟩
  · exact exec_of_answer (.sweepCheck a n e) hr (checkStart_busy (started_past hr _) hbusy _ _)
  · exact exec_of_answer (.sweepFill a n o) hr (checkStart_busy (started_past hr _) hbusy _ _)
  · exact exec_of_answer (.sweepPush o n a v) hr (checkStart_busy (started_past hr _) hbusy _ _)
  · refine exec_of_answer (.sweepFill a n o) hr
      ((checkStart_passes (started_past hr _) hidle (copyRange_of_bounds ha h1 hn han hon) _).trans ?_)
    rw [takeSweepFill, startedState_table, fillConflict_of_lowest hi hlive hmeets hlowest]
  · have hstarts : ∃ c, i.command = some (q, c) ∧ Starts s.table c (startedRecord a n work) ∧
        TakesWords s.store (startedRecord a n work) words ∧
        ∀ p, first = blockRequest work (nextBlock (startedRecord a n work) words p) := by
      rcases hcase with ⟨e, rfl, rfl, rfl, rfl⟩ | ⟨o, rfl, hn, hon, hfree, rfl, rfl, rfl⟩ |
        ⟨o, v, rfl, hn, hon, hv, hgood, rfl, rfl, rfl⟩
      · exact ⟨_, rfl, .check (sweepRange_of_bounds ha h1 (by simp only [Config.spaceWords]; omega) han), .read nofun,
          fun _ => rfl⟩
      · exact ⟨_, rfl, .fill (copyRange_of_bounds ha h1 hn han hon) (fillConflict_of_none hfree), .read nofun, fun _ => rfl⟩
      · obtain ⟨b, hb, hreadback⟩ := startedReadback_of_onOff hv
        exact ⟨_, rfl, hreadback ▸ .push (copyRange_of_bounds ha h1 hn han hon) hb, .push rfl hgood, fun _ => rfl⟩
    obtain ⟨c, hi, hpasses, htakes, hfirst⟩ := hstarts
    have hexec := exec_of_starts hpasses hi hr hidle
    cases hport : portIdle s.arbiter with
    | true =>
      rw [takeBlock_answered_of_idle q rfl htakes hport] at hexec
      exact ⟨_, hexec, rfl, rfl, rfl, rfl, rfl, rfl, rfl, fun _ => ⟨rfl, by rw [hfirst]; rfl, rfl⟩, nofun⟩
    | false =>
      rw [takeBlock_answered_of_busy q rfl htakes hport] at hexec
      exact ⟨_, hexec, rfl, rfl, rfl, rfl, rfl, rfl, rfl, nofun, fun _ => ⟨rfl, rfl, rfl⟩⟩
  · obtain ⟨b, hb, hreadback⟩ := startedReadback_of_onOff hv
    have hexec := exec_of_starts (i := .sweepPush q o n a v) (.push (copyRange_of_bounds ha h1 hn han hon) hb) rfl hr
      hidle
    have hmeets : MeetsBad s.store (startedRecord a n (.push o (startedReadback b))) j := ⟨o, _, rfl, hj, hbad, hlowest⟩
    rw [takeBlock_answered_of_bad q rfl hmeets, hreadback] at hexec
    exact hexec

/-! ### SWEEP_SUSPEND, SWEEP_RESUME and SWEEP_ABORT -/

/-- A suspended sweep goes on with its next block, the command answered OK (R142). -/
theorem exec_sweepResume_of_suspended {s : State} (hr : Ready s) (h : s.sweep.state = .suspended) {r : SweepRecord}
    (hrec : s.sweep.record = some r) (q : Byte) :
    exec (.sweepResume q) s = .next (takeBlock ((answered q .ok [] s).withSweep
      { state := .running, record := some r, block := s.sweep.block })) := by
  have hrun : takeSweepResume (startedState (queuedOf q .sweepResume) s) =
      takeBlock ((answered q .ok [] s).withSweep { state := .running, record := some r, block := s.sweep.block }) := by
    simp only [takeSweepResume, startedState_sweep, h, hrec]
    rw [complete_ok_started hr]
  exact (exec_of_ready .sweepResume hr).trans (congrArg _ ((unlessStarting_past (started_past hr _) _).trans hrun))

section
variable {s : State} (hr : Ready s) (q : Byte)
include hr

theorem exec_sweepSuspend_of_answer {st : Status}
    (h : takeSweepSuspend (startedState (queuedOf q .sweepSuspend) s) =
      complete st [] (startedState (queuedOf q .sweepSuspend) s)) :
    exec (.sweepSuspend q) s = .next (answered q st [] s) :=
  exec_of_answer .sweepSuspend hr ((unlessStarting_past (started_past hr _) _).trans h)

theorem exec_sweepResume_of_not_suspended (h : s.sweep.state ≠ .suspended) :
    exec (.sweepResume q) s = .next (answered q .noSweep [] s) := by
  refine exec_of_answer .sweepResume hr ((unlessStarting_past (started_past hr _) _).trans ?_)
  unfold takeSweepResume
  split
  next hs => exact absurd hs h
  next => rfl

end

/-- Settles O60, by the sweep state and, for a RUNNING sweep, by whether its block has begun. -/
theorem sweepSuspendResumeAbort : Obligations.SweepSuspendResumeAbort := by
  intro s q hr
  have past (c : Command) (f : State → State) : unlessStarting f (startedState (queuedOf q c) s) = _ :=
    unlessStarting_past (started_past hr _) f
  refine ⟨fun hidle => ⟨?_, ?_, ?_⟩, fun hrun => ?_, fun hrun hbegun => ⟨?_, ?_⟩, fun hrun hwaiting => ⟨?_, ?_⟩,
    fun hsusp => ⟨?_, ?_, fun r hrec hcode hport => ?_, fun r o v words hrec hwork hport hgood hwords => ?_,
      fun r o v j hrec hwork hj hbad hlowest => ?_⟩⟩
  · exact exec_sweepSuspend_of_answer hr q (by simp [takeSweepSuspend, hidle])
  · exact exec_sweepResume_of_not_suspended hr q (by simp [hidle])
  · exact exec_of_answer .sweepAbort hr ((past _ _).trans (by simp [takeSweepAbort, hidle]))
  · exact exec_sweepResume_of_not_suspended hr q (by simp [hrun])
  · exact exec_of_await .sweepSuspend hr ((past _ _).trans (by simp [takeSweepSuspend, hrun, hbegun]))
  · exact exec_of_await .sweepAbort hr ((past _ _).trans (by simp [takeSweepAbort, hrun, hbegun]))
  · exact exec_of_completion .sweepSuspend hr
      (u := withdrawBlock ((startedState (queuedOf q .sweepSuspend) s).withSweep { s.sweep with state := .suspended }))
      ((past _ _).trans (by simp [takeSweepSuspend, hrun, hwaiting])) rfl
  · exact exec_of_completion .sweepAbort hr
      (u := endSweep .aborted (withdrawBlock (startedState (queuedOf q .sweepAbort) s)))
      ((past _ _).trans (by simp [takeSweepAbort, hrun, hwaiting])) rfl
  · exact exec_sweepSuspend_of_answer hr q (by simp [takeSweepSuspend, hsusp])
  · exact exec_of_completion .sweepAbort hr (u := endSweep .aborted (startedState (queuedOf q .sweepAbort) s))
      ((past _ _).trans (by simp [takeSweepAbort, hsusp])) rfl
  · have hread : ∀ o v, r.work ≠ .push o v := fun o v hpush => hcode (by rw [hpush]; rfl)
    rw [exec_sweepResume_of_suspended hr hsusp hrec, takeBlock_answered_of_idle q rfl (.read hread) hport,
      blockRequest_of_read hread]
    rfl
  · subst hwords
    rw [exec_sweepResume_of_suspended hr hsusp hrec, takeBlock_answered_of_idle q rfl (.push hwork hgood) hport, hwork]
    rfl
  · have hmeets : MeetsBad s.store r j := ⟨o, v, hwork, hj, hbad, hlowest⟩
    rw [exec_sweepResume_of_suspended hr hsusp hrec, takeBlock_answered_of_bad q rfl hmeets]

end Sys2Proof.Proofs

namespace Sys2Proof.Proofs

open Sys2Proof.Machine

set_option Elab.async false

/-! ## The end of a block

The memory's answer to a block, or its timeout, comes to one of two states with the port free: the block counted, or the
sweep failed. What follows is the engine's own course or that of the command that waits. -/

/-- The machine with a block counted and the port free (R117, R135, R136, R138). -/
def countedState (r : SweepRecord) (b : Block) (work : SweepWork) (m : Store) (s : State) : State :=
  { s with
    store := m
    sweep := { state := .running, record := some { r with done := r.done + b.count, work := work }, block := some b }
    port := { outstanding := none, aborted := false }
    arbiter := { s.arbiter with owner := none } }

theorem countedState_record (r : SweepRecord) (b : Block) (work : SweepWork) (m : Store) (s : State) :
    (countedState r b work m s).sweep.record = some { r with done := r.done + b.count, work := work } := rfl

/-- The machine with the sweep failed at a block's access and the port free (R118, R139). -/
def failedState (byAbort : Bool) (k : Cause) (c : FailCause) (r : SweepRecord) (b : Block) (s : State) : State :=
  { s with
    control := { s.control with causes := s.control.causes ||| causeBit k ||| causeBit .sweepEnd }
    sweep := { state := .idle, record := some { r with outcome := .failed, fail := some (c, b.addr) }, block := none }
    port := { outstanding := none, aborted := byAbort }
    arbiter := { s.arbiter with owner := none } }

/-! ### The rows -/

theorem sweepOutstanding_of_sweep {s : State} {r : SweepRecord} {b : Block}
    (h : s.sweep = { state := .running, record := some r, block := some b }) :
    sweepOutstanding s.sweep = (sweepRequest r b).map fun q => (r, b, q) := by rw [h]; rfl

theorem sweepRequest_of_begun {r : SweepRecord} {b : Block} (h : b.phase = .access ∨ b.phase = .back) :
    sweepRequest r b = some (if b.phase = .access then blockRequest r.work b else .read b.addr b.count) := by
  rcases h with h | h <;> simp [sweepRequest, h]

/-- The last OKAY of a block answers the access that the block has outstanding (R25). -/
theorem begun_and_fits_of_done {r : SweepRecord} {b : Block} {data : List Word} {before after : Store} {work : SweepWork}
    (h : BlockDone r b data before work after) : (b.phase = .access ∨ b.phase = .back) ∧
      answers (if b.phase = .access then blockRequest r.work b else .read b.addr b.count) (.okay data) = true := by
  rcases h with ⟨e, crc, k, hwork, -, -, hphase, hlen⟩ | ⟨o, v, hwork, -, -, hphase, hlen⟩ |
    ⟨o, hwork, -, -, hphase, rfl⟩ | ⟨o, v, -, -, hphase, hlen, -⟩
  · exact ⟨.inl hphase, by simp [answers, blockRequest, hphase, hwork, hlen]⟩
  · exact ⟨.inl hphase, by simp [answers, blockRequest, hphase, hwork, hlen]⟩
  · exact ⟨.inl hphase, by simp [answers, blockRequest, hphase, hwork]⟩
  · exact ⟨.inr hphase, by simp [answers, hphase, hlen]⟩

/-- A row that answers the access outstanding, with the next command considered behind it (R134, R160). -/
theorem exec_sweepBlockResponse_outstanding {s : State} {r : SweepRecord} {b : Block} {q : BusRequest} {resp : BusResponse}
    (h : s.sweep = { state := .running, record := some r, block := some b }) (hq : sweepRequest r b = some q)
    (hfits : answers q resp = true) :
    exec (.sweepBlockResponse resp) s = .next (considerNext (sweepAnswered r b resp s)) := by
  simp [exec, execSweepBlockResponse, sweepOutstanding_of_sweep h, hq, hfits]

section
variable {s : State} {r : SweepRecord} {b : Block}
  (hsweep : s.sweep = { state := .running, record := some r, block := some b }) (hw : NobodyWaits s.arbiter)
include hsweep hw

/-- The failure of a block's access, nobody waiting for the port (R139). -/
theorem blockFailed_eq (byAbort : Bool) (k : Cause) (c : FailCause) :
    blockFailed byAbort c b (raise k s) = afterOwnEnd (failedState byAbort k c r b s) := by
  have hrec : s.sweep.record = some r := by rw [hsweep]
  rw [blockFailed, freePort_of_none_waiting (s := raise k s) byAbort hw,
    failSweep_of_record (s := ((raise k s).withPort _).withArbiter _) hrec]
  rfl

theorem exec_block_error (hphase : b.phase = .access ∨ b.phase = .back) :
    exec (.sweepBlockResponse .error) s =
      .next (considerNext (afterOwnEnd (failedState false .downError .memError r b s))) := by
  rw [exec_sweepBlockResponse_outstanding hsweep (sweepRequest_of_begun hphase) rfl, sweepAnswered, blockFailed_eq hsweep hw]

theorem exec_block_timeout (hphase : b.phase = .access ∨ b.phase = .back) (howner : s.arbiter.owner = some .sweep) :
    exec .downstreamTimeoutExpiry s =
      .next (considerNext (afterOwnEnd (failedState true .downTimeout .timeout r b s))) := by
  have hexpire : expireTimeout s = sweepTimedOut b s := by
    simp [expireTimeout, howner, sweepOutstanding_of_sweep hsweep, sweepRequest_of_begun hphase]
  show Host.Outcome.next (considerNext (expireTimeout s)) = _
  rw [hexpire, sweepTimedOut, blockFailed_eq hsweep hw]

/-- A record changed by its block's end, with the port freed behind it. -/
theorem freePort_counted {f : SweepRecord → SweepRecord} {work : SweepWork}
    (hf : f r = { r with done := r.done + b.count, work := work }) (m : Store) :
    freePort false (updateRecord f (s.withStore m)) = countedState r b work m s := by
  rw [freePort_of_none_waiting (s := updateRecord f (s.withStore m)) false hw, updateRecord,
    State.withStore_sweep, hsweep, Option.map_some, hf]
  rfl

/-- The last OKAY of a block has its effect and counts the block (R135, R136, R138). -/
theorem blockAnswered_of_done {data : List Word} {work : SweepWork} {m : Store}
    (h : BlockDone r b data s.store work m) :
    blockAnswered r b data s = blockCompleted (countedState r b work m s) := by
  rcases h with ⟨e, crc, k, hwork, rfl, rfl, -, -⟩ | ⟨o, v, hwork, rfl, rfl, -, -⟩ | ⟨o, hwork, rfl, rfl, hphase, -⟩ |
    ⟨o, v, hwork, rfl, hphase, -, rfl⟩
  · rw [← freePort_counted hsweep hw (f := foldBlock b data) (by simp only [foldBlock, hwork, countDone])]
    simp only [blockAnswered, hwork]; rfl
  · rw [← freePort_counted hsweep hw (f := countDone b) rfl]
    simp only [blockAnswered, hwork]
  · rw [← freePort_counted hsweep hw (f := countDone b) rfl]
    simp only [blockAnswered, hwork, hphase]; rfl
  · rw [← freePort_counted hsweep hw (f := verifyBlock b data) (by simp only [verifyBlock, hwork, countDone]; rfl)]
    simp only [blockAnswered, hwork, hphase]; rfl

theorem exec_block_done {data : List Word} {work : SweepWork} {m : Store} (h : BlockDone r b data s.store work m) :
    exec (.sweepBlockResponse (.okay data)) s = .next (considerNext (blockCompleted (countedState r b work m s))) := by
  obtain ⟨hphase, hfits⟩ := begun_and_fits_of_done h
  rw [exec_sweepBlockResponse_outstanding hsweep (sweepRequest_of_begun hphase) hfits, sweepAnswered,
    blockAnswered_of_done hsweep hw h]

end

end Sys2Proof.Proofs

namespace Sys2Proof.Proofs

open Sys2Proof.Machine

set_option Elab.async false

/-! ## What the end of a block brings (R134, R140, R141, R143, R148) -/

theorem afterOwnEnd_of_noWaiter {s : State} (h : NoWaiter s.link) : afterOwnEnd s = s := by
  obtain ⟨hsuspend, habort, hreset⟩ := h
  unfold afterOwnEnd
  split
  next he => exact absurd he hsuspend
  next he => exact absurd he habort
  next he => exact absurd he hreset
  next => rfl

section
variable {s : State} {r : SweepRecord} (hrec : s.sweep.record = some r)
include hrec

theorem blockCompleted_of_last (h : r.count ≤ r.done) : blockCompleted s = afterOwnEnd (endSweep .done s) := by
  simp only [blockCompleted, hrec, if_pos h]

theorem blockCompleted_of_noWaiter (h : r.done < r.count) (hn : NoWaiter s.link) : blockCompleted s = takeBlock s := by
  obtain ⟨hsuspend, habort, hreset⟩ := hn
  simp only [blockCompleted, hrec, if_neg (Nat.not_le.mpr h)]

theorem blockCompleted_of_suspend (h : r.done < r.count) (he : s.link.executing = some .suspend) :
    blockCompleted s = complete .ok [] (s.withSweep { s.sweep with state := .suspended, block := none }) := by
  simp only [blockCompleted, hrec, if_neg (Nat.not_le.mpr h), he]

theorem blockCompleted_of_abort (h : r.done < r.count) (he : s.link.executing = some .abort) :
    blockCompleted s = complete .ok [] (endSweep .aborted s) := by
  simp only [blockCompleted, hrec, if_neg (Nat.not_le.mpr h), he]

theorem blockCompleted_of_softReset (h : r.done < r.count) (he : s.link.executing = some .softResetBlock) :
    blockCompleted s = softResetChange s := by
  simp only [blockCompleted, hrec, if_neg (Nat.not_le.mpr h), he]

end

/-! ## Nobody waits for the block

The engine goes its own course, and since the link interface stays, no command starts behind the block (R158). -/

theorem considerNext_afterOwnEnd {s t : State} (hn : NoWaiter s.link) (hs : StartSound s) (hlink : t.link = s.link) :
    considerNext (afterOwnEnd t) = t := by
  rw [afterOwnEnd_of_noWaiter (hlink ▸ hn), considerNext_of_not (mayStart_of_link hs hlink)]

theorem portIdle_of_freed {a : Arbiter} (h : NobodyWaits a) : portIdle { a with owner := none } = true := by
  obtain ⟨hforward, hlink, hsweep⟩ := h
  simp [portIdle, hforward, hlink, hsweep]

/-- The machine with the sweep ended DONE by its last block (R140). -/
def doneState (r : SweepRecord) (work : SweepWork) (m : Store) (s : State) : State :=
  { s with
    store := m
    control := { s.control with causes := s.control.causes ||| causeBit .sweepEnd }
    sweep := { state := .idle, record := some { r with done := r.count, outcome := .done, work := doneWork work }
               block := none }
    port := { outstanding := none, aborted := false }
    arbiter := { s.arbiter with owner := none } }

theorem matchAtDone_eq (w : SweepWork) : matchAtDone w = doneWork w := by
  cases w with
  | check expected crc matched =>
    cases expected with
    | none => rfl
    | some e => rfl
  | fill offset overlap => rfl
  | push offset verify => rfl

theorem endedRecord_done (r : SweepRecord) :
    endedRecord .done r = { r with outcome := .done, work := doneWork r.work } := by
  rw [← matchAtDone_eq]; rfl

theorem endSweep_done_counted {r : SweepRecord} {b : Block} (h : r.done + b.count = r.count) (work : SweepWork)
    (m : Store) (s : State) : endSweep .done (countedState r b work m s) = doneState r work m s := by
  rw [endSweep_of_record (countedState_record r b work m s), endedRecord_done]
  simp only [h]
  rfl

/-- A PUSH writes nothing to the store (R138). -/
theorem store_of_push_done {r : SweepRecord} {b : Block} {data : List Word} {before after : Store} {work : SweepWork}
    (h : BlockDone r b data before work after) {o : Nat} {v : Option Readback} (hwork : work = .push o v) :
    after = before := by
  rcases h with ⟨e, crc, k, -, rfl, -⟩ | ⟨o', v', hr, rfl, -⟩ | ⟨o', -, -, hafter, -⟩ | ⟨o', v', -, hafter, -⟩
  · cases hwork
  · cases hr.symm.trans hwork
  · exact hafter
  · exact hafter

section
variable {s : State} {r : SweepRecord} {b : Block} {data : List Word} {work : SweepWork} {m : Store}
  (hsweep : s.sweep = { state := .running, record := some r, block := some b })
  (hdone : BlockDone r b data s.store work m) (hw : NobodyWaits s.arbiter) (hn : NoWaiter s.link) (hs : StartSound s)
include hsweep hdone hw hn hs

/-- With words left the engine takes the next block in hand (R134). -/
theorem exec_block_more (hmore : r.done + b.count < r.count) :
    exec (.sweepBlockResponse (.okay data)) s = .next (takeBlock (countedState r b work m s)) := by
  have hlink : (takeBlock (countedState r b work m s)).link = s.link := takeBlock_link _
  rw [exec_block_done hsweep hw hdone, blockCompleted_of_noWaiter (countedState_record r b work m s) hmore hn,
    considerNext_of_not (mayStart_of_link hs hlink)]

/-- The next block's first access is issued at once, at the port that the block before freed (R114, R117, R134). -/
theorem exec_block_more_of_words (hmore : r.done + b.count < r.count) {words : List Word}
    (h : TakesWords m { r with done := r.done + b.count, work := work } words) :
    exec (.sweepBlockResponse (.okay data)) s = .next { s with
      store := m
      sweep :=
        { state := .running
          record := some { r with done := r.done + b.count, work := work }
          block := some (nextBlock { r with done := r.done + b.count, work := work } words .access) }
      port :=
        { outstanding := issued (blockRequest work
            (nextBlock { r with done := r.done + b.count, work := work } words .access)) s
          aborted := false }
      arbiter := { s.arbiter with owner := some .sweep, sweepPassed := 0 } } := by
  rw [exec_block_more hsweep hdone hw hn hs hmore, takeBlock_of_words (countedState_record r b work m s) h,
    presentBlock_of_idle (countedState_record r b work m s) (portIdle_of_freed hw)]
  rfl

end

/-- The OKAY of a verified PUSH block's write has its read back issued at once (R117, R138). -/
theorem exec_push_written {s : State} {r : SweepRecord} {b : Block} {o : Nat} {v : Readback}
    (hsweep : s.sweep = { state := .running, record := some r, block := some b }) (hphase : b.phase = .access)
    (hwork : r.work = .push o (some v)) (hw : NobodyWaits s.arbiter) (hs : StartSound s) :
    exec (.sweepBlockResponse (.okay [])) s = .next { s with
      sweep := { state := .running, record := some r, block := some { b with phase := .back } }
      port := { outstanding := issued (.read b.addr b.count) s, aborted := false }
      arbiter := { s.arbiter with owner := some .sweep, sweepPassed := 0 } } := by
  have hanswer : blockAnswered r b [] s = { s with
      sweep := { state := .running, record := some r, block := some { b with phase := .back } }
      port := { outstanding := issued (.read b.addr b.count) s, aborted := false }
      arbiter := { s.arbiter with owner := some .sweep, sweepPassed := 0 } } := by
    simp only [blockAnswered, hwork, hphase]
    rw [freePort_of_none_waiting false (by exact hw), present_sweep_of_idle (by exact portIdle_of_freed hw), hsweep]
    rfl
  rw [exec_sweepBlockResponse_outstanding hsweep (sweepRequest_of_begun (.inl hphase))
    (by simp [answers, blockRequest, hphase, hwork]), sweepAnswered, hanswer,
    considerNext_of_not (mayStart_of_link hs (by rfl))]

/-- Settles O56, by what the next block is taken in hand with. -/
theorem sweepBlockCompletes : Obligations.SweepBlockCompletes := by
  refine ⟨fun s r b data work m next hsweep hdone hnext hmore hw hn hs => ?_,
    fun s r b o v hsweep hphase hwork hw hs => exec_push_written hsweep hphase hwork hw hs⟩
  subst hnext
  refine ⟨fun hread => ?_, fun o v words hwork hgood hwords => ?_, fun o v j hwork hj hbad hlowest => ?_⟩
  · rw [exec_block_more_of_words hsweep hdone hw hn hs hmore (.read hread), blockRequest_of_read hread]
    rfl
  · obtain rfl := store_of_push_done hdone hwork
    subst hwork hwords
    rw [exec_block_more_of_words hsweep hdone hw hn hs hmore (.push rfl hgood)]
    rfl
  · obtain rfl := store_of_push_done hdone hwork
    have hmeets : MeetsBad s.store { r with done := r.done + b.count, work := work } j :=
      ⟨o, v, hwork, hj, hbad, hlowest⟩
    rw [exec_block_more hsweep hdone hw hn hs hmore, takeBlock_of_bad (countedState_record r b work s.store s) hmeets]
    rfl

/-- Settles O57: the last block's completion is the end of the sweep, and nothing waits for it. -/
theorem sweepEndsDone : Obligations.SweepEndsDone := by
  intro s r b data work m hsweep hdone hlast hw hn hs
  rw [exec_block_done hsweep hw hdone, blockCompleted_of_last (countedState_record r b work m s) hlast.ge,
    endSweep_done_counted hlast, considerNext_afterOwnEnd (t := doneState r work m s) hn hs rfl]
  rfl

/-- Settles O59: ERROR and timeout end the sweep alike, with their cause raised. -/
theorem failedBlockEndsTheSweep : Obligations.FailedBlockEndsTheSweep := by
  intro s r b hsweep hphase hw hn hs
  exact ⟨(exec_block_error hsweep hw hphase).trans (congrArg _ (considerNext_afterOwnEnd hn hs rfl)),
    fun howner => (exec_block_timeout hsweep hw hphase howner).trans (congrArg _ (considerNext_afterOwnEnd hn hs rfl))⟩

/-! ## A command waits for the block

The command completes with the block, which lets the command behind it be considered (R160). -/

section
variable {s : State} {e : Executing} {q : QueuedCommand} {rest : List QueuedCommand} {held : List Entry}
  (h : Executes s e q rest held)
include h

/-- The sweep that ends by its own event leaves SWEEP_SUSPEND and SWEEP_ABORT no sweep (R141, R143). -/
theorem afterOwnEnd_of_waiting (he : e = .suspend ∨ e = .abort) :
    afterOwnEnd s = s.withLink (completedLink s.link rest held ⟨q.seq, .noSweep, []⟩) := by
  have ⟨_, hexecuting, _⟩ := h
  rw [← complete_of_executes h]
  rcases he with rfl | rfl
  · simp only [afterOwnEnd, hexecuting]
  · simp only [afterOwnEnd, hexecuting]

/-- The change of a soft reset with the completion of its command (R174). -/
theorem softResetChange_of_executes :
    softResetChange s = softResetState (completedLink s.link rest held ⟨q.seq, .ok, []⟩) s := by
  rw [softResetChange_eq, complete_of_executes (s := changedBySoftReset s) h]
  rfl

theorem afterOwnEnd_of_softReset (he : e = .softResetBlock) :
    afterOwnEnd s = softResetState (completedLink s.link rest held ⟨q.seq, .ok, []⟩) s := by
  have ⟨_, hexecuting, _⟩ := h
  rw [← softResetChange_of_executes h]
  simp only [afterOwnEnd, hexecuting, he]

/-- At the last block and before it, a SOFT_RESET that waits makes its change (R148, R173). -/
theorem blockCompleted_of_softResetWaiting (he : e = .softResetBlock) {r : SweepRecord}
    (hrec : s.sweep.record = some r) :
    blockCompleted s = softResetState (completedLink s.link rest held ⟨q.seq, .ok, []⟩) s := by
  rcases Nat.lt_or_ge r.done r.count with hmore | hlast
  · have ⟨_, hexecuting, _⟩ := h
    rw [blockCompleted_of_softReset hrec hmore (by rw [hexecuting, he]), softResetChange_of_executes h]
  · rw [blockCompleted_of_last hrec hlast, afterOwnEnd_of_softReset (s := endSweep .done s) h he]
    rfl

end

/-- Settles O58: the command that waits takes its course at the block that completes, and at the block that fails. -/
theorem waitersActAtTheBlockEnd : Obligations.WaitersActAtTheBlockEnd := by
  intro s r b e q rest held hsweep hex hw
  have ⟨_, hexecuting, _⟩ := hex
  refine ⟨fun data work m hdone hmore => ⟨fun he => ?_, fun he => ?_⟩, fun data work m hdone hlast he => ?_,
    fun data work m hdone _ he => ?_, fun hphase => ⟨fun he => ⟨?_, fun howner => ?_⟩, fun he => ⟨?_, fun howner => ?_⟩⟩⟩
  · rw [exec_block_done hsweep hw hdone,
      blockCompleted_of_suspend (countedState_record r b work m s) hmore (hexecuting.trans (congrArg _ he)),
      complete_of_executes (s := (countedState r b work m s).withSweep _) hex]
    rfl
  · rw [exec_block_done hsweep hw hdone,
      blockCompleted_of_abort (countedState_record r b work m s) hmore (hexecuting.trans (congrArg _ he)),
      complete_of_executes (s := endSweep .aborted (countedState r b work m s)) hex]
    rfl
  · rw [exec_block_done hsweep hw hdone, blockCompleted_of_last (countedState_record r b work m s) hlast.ge,
      endSweep_done_counted hlast, afterOwnEnd_of_waiting (s := doneState r work m s) hex he]
    rfl
  · rw [exec_block_done hsweep hw hdone,
      blockCompleted_of_softResetWaiting (s := countedState r b work m s) hex he rfl]
    rfl
  · rw [exec_block_error hsweep hw hphase, afterOwnEnd_of_waiting (s := failedState _ _ _ _ _ s) hex he]
    rfl
  · rw [exec_block_timeout hsweep hw hphase howner, afterOwnEnd_of_waiting (s := failedState _ _ _ _ _ s) hex he]
    rfl
  · rw [exec_block_error hsweep hw hphase, afterOwnEnd_of_softReset (s := failedState _ _ _ _ _ s) hex he]
    rfl
  · rw [exec_block_timeout hsweep hw hphase howner, afterOwnEnd_of_softReset (s := failedState _ _ _ _ _ s) hex he]
    rfl

end Sys2Proof.Proofs

namespace Sys2Proof.Proofs

open Sys2Proof.Machine

set_option Elab.async false

/-! ## A command's start, apart from the link interface

A block's meaning reads nothing of the link interface and reaches it by one ending alone: its answer, or the wait for
something. -/

/-- The change leaves the link interface and the pins, and depends on the link interface in nothing. -/
structure Apart (f : State → State) : Prop where
  withLink : ∀ s l, f (s.withLink l) = (f s).withLink l
  pins : ∀ s, (f s).pins = s.pins

theorem Apart.comp {f g : State → State} (hg : Apart g) (hf : Apart f) : Apart (fun s => g (f s)) :=
  ⟨fun s l => by rw [hf.withLink, hg.withLink], fun s => (hg.pins _).trans (hf.pins s)⟩

/-! ### The operations that blocks make use of -/

theorem checkLevel_apart : Apart checkLevel :=
  ⟨fun s l => by unfold checkLevel; rw [show levelCondition (s.withLink l) = levelCondition s from rfl]; split <;> rfl,
    checkLevel_pins⟩

theorem removeOldest_apart (n : Nat) : Apart (removeOldest n) :=
  ⟨fun s _ => checkLevel_apart.withLink (s.withCapture { s.capture with queue := s.capture.queue.drop n }) _,
    removeOldest_pins n⟩

theorem writeConfig_apart (c : ConfigSet) : Apart (writeConfig c) :=
  ⟨fun s _ => checkLevel_apart.withLink (s.withControl _) _, writeConfig_pins c⟩

theorem clearCauses_apart (n : CauseSet) : Apart (clearCauses n) :=
  ⟨fun s _ => checkLevel_apart.withLink (s.withControl _) _, clearCauses_pins n⟩

theorem sampleFbyp_apart : Apart sampleFbyp :=
  ⟨fun s l => by
    by_cases h : (s.pins.fbyp && s.control.part == .active) = true
    · rw [sampleFbyp, sampleFbyp, if_pos h, if_pos (by exact h)]; rfl
    · rw [sampleFbyp, sampleFbyp, if_neg h, if_neg (by exact h)], sampleFbyp_pins⟩

theorem giveResponse_apart (r : BusRequest) (resp : BusResponse) : Apart (giveResponse r resp) :=
  ⟨fun s _ => sampleFbyp_apart.withLink (s.withForward _) _, giveResponse_pins r resp⟩

theorem admitRecord_apart (o : CaptureOffer) : Apart (admitRecord o) :=
  ⟨fun s _ => checkLevel_apart.withLink (s.withCapture _) _, admitRecord_pins o⟩

theorem endHoldBySpace_apart : Apart endHoldBySpace := by
  refine ⟨fun s l => ?_, endHoldBySpace_pins⟩
  simp only [endHoldBySpace, State.withLink_forward, State.withLink_capture]
  split
  next h o _ _ =>
    exact ((giveResponse_apart h.request h.response).comp (admitRecord_apart o.offer)).withLink (clearHeld s) l
  next => rfl

theorem endHoldByDrop_apart : Apart endHoldByDrop := by
  refine ⟨fun s l => ?_, endHoldByDrop_pins⟩
  simp only [endHoldByDrop, State.withLink_forward]
  split
  next h _ => exact (giveResponse_apart h.request h.response).withLink (dropRecord (clearHeld s)) l
  next => rfl

theorem endSweep_apart (o : SweepOutcome) : Apart (endSweep o) := ⟨fun _ _ => rfl, endSweep_pins o⟩

theorem withdrawBlock_apart : Apart withdrawBlock := ⟨fun _ _ => rfl, withdrawBlock_pins⟩

theorem reportWrite_apart (a : Nat) (ws : List WriteWord) : Apart (reportWrite a ws) := by
  refine ⟨fun s l => ?_, reportWrite_pins a ws⟩
  simp only [reportWrite, State.withLink_sweep]
  split
  · split <;> rfl
  · rfl

theorem issueReported_apart (r : BusRequest) : Apart (issueReported r) :=
  ⟨fun s l => by
    cases r with
    | read a n => rfl
    | write a ws => exact (reportWrite_apart a ws).withLink (issue (.write a ws) s) l, issueReported_pins r⟩

theorem grant_apart (r : Requester) : Apart (grant r) := by
  refine ⟨fun s l => ?_, grant_pins r⟩
  cases r with
  | forward =>
    simp only [grant, issueForward, State.withArbiter_forward, State.withLink_forward]
    split
    · exact (issueReported_apart _).withLink ((s.withArbiter _).withForward _) l
    · rfl
  | link =>
    simp only [grant, issueLink, State.withArbiter_access, State.withLink_access]
    split
    · exact (issueReported_apart _).withLink ((s.withArbiter _).withAccess _) l
    · rfl
  | sweep =>
    simp only [grant, issueSweep, State.withArbiter_sweep, State.withLink_sweep]
    split
    · split <;> rfl
    · rfl

theorem present_apart (r : Requester) : Apart (present r) := by
  refine ⟨fun s l => ?_, present_pins r⟩
  by_cases h : portIdle s.arbiter = true
  · rw [present_eq, present_eq, if_pos h, if_pos (by exact h)]; exact (grant_apart r).withLink s l
  · rw [present_eq, present_eq, if_neg h, if_neg (by exact h)]; rfl

theorem presentBlock_apart (r : SweepRecord) (words : List Word) : Apart (presentBlock r words) :=
  ⟨fun s _ => (present_apart .sweep).withLink (s.withSweep _) _, presentBlock_pins r words⟩

theorem takeBlock_apart : Apart takeBlock := by
  refine ⟨fun s l => ?_, takeBlock_pins⟩
  simp only [takeBlock, State.withLink_sweep, State.withLink_store]
  split
  · rfl
  · split
    · split
      · rfl
      · exact (presentBlock_apart _ _).withLink s l
    · exact (presentBlock_apart _ _).withLink s l

/-! ### How a start ends -/

/-- How a command's start ends: with its answer, or waiting (R160). -/
inductive CommandEnd where
  | answer (status : Status) (payload : List Byte)
  | wait (e : Executing)

/-- What the end does to the link interface. -/
def CommandEnd.apply : CommandEnd → LinkInterface → LinkInterface
  | .answer st p, l => completeLink st p l
  | .wait e, l => { l with executing := some e }

/-- Whatever link interface has the command at its head, the meaning leaves the same machine around it, the pins as they
were, and ends in the same way. -/
def EndsApart (f : State → State) (s : State) : Prop :=
  ∃ (u : State) (e : CommandEnd), u.pins = s.pins ∧
    ∀ l : LinkInterface, l.commands ≠ [] → f (s.withLink l) = u.withLink (e.apply l)

theorem endsApart_of_complete {f : State → State} {s : State} (u : State) (st : Status) (p : List Byte)
    (hp : u.pins = s.pins) (h : ∀ l, f (s.withLink l) = complete st p (u.withLink l)) : EndsApart f s :=
  ⟨u, .answer st p, hp, fun l _ => (h l).trans (complete_withLink st p u l)⟩

/-- The meaning answers behind a change of its own. -/
theorem Apart.endsApart {g : State → State} (hg : Apart g) {f : State → State} {s : State} (st : Status) (p : List Byte)
    (h : ∀ l, f (s.withLink l) = complete st p (g (s.withLink l))) : EndsApart f s :=
  endsApart_of_complete (g s) st p (hg.pins s) fun l => by rw [h, hg.withLink]

/-- A change behind the end of a command. -/
theorem EndsApart.then {f g : State → State} {s : State} (hf : EndsApart f s) (hg : Apart g) :
    EndsApart (fun s => g (f s)) s := by
  obtain ⟨u, e, hp, h⟩ := hf
  exact ⟨g u, e, (hg.pins u).trans hp, fun l hl => (congrArg g (h l hl)).trans (hg.withLink u _)⟩

/-- Where two meanings agree, one ends as the other does. -/
theorem EndsApart.congr {f g : State → State} {s : State} (hf : EndsApart f s)
    (h : ∀ l, g (s.withLink l) = f (s.withLink l)) : EndsApart g s := by
  obtain ⟨u, e, hp, hend⟩ := hf
  exact ⟨u, e, hp, fun l hl => (h l).trans (hend l hl)⟩

theorem complete_endsApart (st : Status) (p : List Byte) (s : State) : EndsApart (complete st p) s :=
  endsApart_of_complete s st p rfl fun _ => rfl

/-- The meaning answers with what it reads outside the link interface. -/
theorem answer_endsApart (st : Status) (p : State → List Byte) (s : State)
    (hp : ∀ l, p (s.withLink l) = p s := by exact fun _ => rfl) : EndsApart (fun s => complete st (p s) s) s :=
  endsApart_of_complete s st (p s) rfl fun l => by rw [hp]

theorem await_endsApart (e : Executing) (s : State) : EndsApart (await e) s := ⟨s, .wait e, rfl, fun _ _ => rfl⟩

theorem carry_pins (b : BoundaryCommand) (s : State) : (carry b s).pins = s.pins := by
  cases b <;> simp [carry]

theorem carry_endsApart (b : BoundaryCommand) (s : State) : EndsApart (carry b) s := by
  obtain ⟨u, e, h⟩ := carry_actsApart b s
  have hp : u.pins = s.pins := by
    have := congrArg State.pins (h s.link)
    rwa [carry_pins, State.withLink_pins, State.withLink_pins, eq_comm] at this
  cases e with
  | none => exact ⟨u, .wait .softResetBlock, hp, fun l _ => h l⟩
  | some a => exact ⟨u, .answer a.1 a.2, hp, fun l _ => h l⟩

/-! ### First checks -/

theorem unlessStarting_endsApart {f : State → State} {s : State} (h : EndsApart f s) :
    EndsApart (unlessStarting f) s := by
  by_cases hp : s.control.part = .starting
  · exact (complete_endsApart .starting [] s).congr fun l => unlessStarting_starting (s := s.withLink l) hp f
  · exact h.congr fun l => unlessStarting_past (s := s.withLink l) hp f

/-- A check of what stands outside the link interface. -/
theorem ite_endsApart {f g : State → State} {s : State} (c : Prop) [Decidable c] (hf : c → EndsApart f s)
    (hg : ¬ c → EndsApart g s) : EndsApart (fun s => if c then f s else g s) s := by
  by_cases hc : c
  · exact (hf hc).congr fun _ => if_pos hc
  · exact (hg hc).congr fun _ => if_neg hc

theorem onSlot_endsApart {f : State → State} {s : State} (slot : Nat) (h : EndsApart f s) :
    EndsApart (onSlot slot f) s :=
  unlessStarting_endsApart (ite_endsApart _ (fun _ => h) fun _ => complete_endsApart _ _ s)

theorem checkStart_endsApart {f : State → State} {s : State} (inRange : Bool) (h : EndsApart f s) :
    EndsApart (checkStart inRange f) s :=
  unlessStarting_endsApart ((ite_endsApart (s.sweep.state ≠ .idle) (fun _ => complete_endsApart .busy [] s) fun _ =>
    ite_endsApart (inRange = true) (fun _ => h) fun _ => complete_endsApart .range [] s).congr fun _ => rfl)

theorem atBoundary_endsApart (b : BoundaryCommand) (s : State) : EndsApart (atBoundary b) s :=
  (ite_endsApart (s.forward.path = .idle) (fun _ => carry_endsApart b s) fun _ =>
    await_endsApart (.boundary b) s).congr fun _ => rfl

/-! ### The commands -/

/-- Memory commands wait for their accesses (R120). -/
theorem beginAccess_endsApart (job : AccessJob) (s : State) : EndsApart (beginAccess job) s :=
  ⟨present .link (s.withAccess (.waitGrant job)), .wait .access, present_pins _ _, fun _ _ =>
    (present_apart .link).withLink (s.withAccess (.waitGrant job)) _⟩

theorem takeReadView_endsApart (addr count : Nat) (s : State) : EndsApart (takeReadView addr count) s := by
  have proceeds (view : List ViewWord) (o : RequestOutcome) : EndsApart (proceedView addr count view o) s :=
    ite_endsApart (viewNeedsMemory view = true) (fun _ => beginAccess_endsApart _ s) fun _ => complete_endsApart _ _ s
  exact (ite_endsApart (s.control.part = .active) (fun _ => proceeds
    ((decideView addr count s).words.map (viewWord (decideView addr count s).snapshot))
    (predictOutcome (decideView addr count s))) fun _ => proceeds (bypassView count) .okay).congr fun _ => rfl

/-- SOFT_RESET taken is carried out at an IDLE path, and waits at any other (R173). -/
theorem takeSoftReset_endsApart (s : State) : EndsApart takeSoftReset s := by
  have taken (l : LinkInterface) : endHoldByDrop (await (.boundary .softReset) (s.withLink l)) =
      (endHoldByDrop s).withLink { l with executing := some (.boundary .softReset) } :=
    endHoldByDrop_apart.withLink s _
  by_cases hi : (endHoldByDrop s).forward.path = .idle
  · obtain ⟨u, e, hp, h⟩ := carry_endsApart .softReset (endHoldByDrop s)
    refine ⟨u, e, hp.trans (endHoldByDrop_pins s), fun l hl => ?_⟩
    have carried := h { l with executing := some (.boundary .softReset) } hl
    rw [takeSoftReset, taken, carryAtIdle, if_pos (by exact hi)]
    refine carried.trans ?_
    obtain ⟨q, rest, hq⟩ := List.exists_cons_of_ne_nil hl
    cases e <;> simp [CommandEnd.apply, completeLink, hq]
  · refine ⟨endHoldByDrop s, .wait (.boundary .softReset), endHoldByDrop_pins s, fun l _ => ?_⟩
    rw [takeSoftReset, taken, carryAtIdle, if_neg (by exact hi)]
    rfl

theorem startSweep_endsApart (r : SweepRecord) (s : State) : EndsApart (startSweep r) s :=
  (endsApart_of_complete (s.withSweep { state := .running, record := some r, block := none }) .ok [] rfl
    (f := fun s => complete .ok [] (s.withSweep { state := .running, record := some r, block := none }))
    fun _ => rfl).then takeBlock_apart

theorem takeSweepFill_endsApart (addr count offset : Nat) (s : State) :
    EndsApart (takeSweepFill addr count offset) s := by
  cases hc : fillConflict s.table offset count with
  | some i => exact (complete_endsApart .conflict (natBytes 1 i) s).congr fun l => by simp [takeSweepFill, hc]
  | none =>
    refine (startSweep_endsApart (startedRecord addr count (.fill offset false)) s).congr fun l => ?_
    simp only [takeSweepFill, State.withLink_table, hc]

theorem takeSweepSuspend_endsApart (s : State) : EndsApart takeSweepSuspend s := by
  cases hs : s.sweep.state with
  | idle => exact (complete_endsApart .noSweep [] s).congr fun l => by simp [takeSweepSuspend, hs]
  | suspended => exact (complete_endsApart .ok [] s).congr fun l => by simp [takeSweepSuspend, hs]
  | running =>
    have suspended : EndsApart
        (fun s => complete .ok [] (withdrawBlock (s.withSweep { s.sweep with state := .suspended }))) s :=
      endsApart_of_complete (withdrawBlock (s.withSweep { s.sweep with state := .suspended })) .ok [] rfl fun _ => rfl
    refine (ite_endsApart (blockBegun s.sweep = true) (fun _ => await_endsApart .suspend s) fun _ =>
      suspended).congr fun l => ?_
    simp only [takeSweepSuspend, State.withLink_sweep, hs]; rfl

theorem takeSweepResume_endsApart (s : State) : EndsApart takeSweepResume s := by
  have resumed : EndsApart (fun s => takeBlock (complete .ok [] (s.withSweep { s.sweep with state := .running }))) s :=
    (endsApart_of_complete (f := fun s => complete .ok [] (s.withSweep { s.sweep with state := .running }))
      (s.withSweep { s.sweep with state := .running }) .ok [] rfl fun _ => rfl).then takeBlock_apart
  cases hs : s.sweep.state with
  | suspended => exact resumed.congr fun l => by simp only [takeSweepResume, State.withLink_sweep, hs]
  | _ => exact (complete_endsApart .noSweep [] s).congr fun l => by simp [takeSweepResume, hs]

theorem takeSweepAbort_endsApart (s : State) : EndsApart takeSweepAbort s := by
  cases hs : s.sweep.state with
  | idle => exact (complete_endsApart .noSweep [] s).congr fun l => by simp [takeSweepAbort, hs]
  | suspended =>
    exact (endSweep_apart .aborted).endsApart .ok [] fun l => by simp [takeSweepAbort, hs]
  | running =>
    have aborted : EndsApart (fun s => complete .ok [] (endSweep .aborted (withdrawBlock s))) s :=
      ((endSweep_apart .aborted).comp withdrawBlock_apart).endsApart .ok [] fun _ => rfl
    refine (ite_endsApart (blockBegun s.sweep = true) (fun _ => await_endsApart .abort s) fun _ =>
      aborted).congr fun l => ?_
    simp only [takeSweepAbort, State.withLink_sweep, hs]; rfl

/-- A record acknowledged may end a hold behind the answer (R100, R106). -/
theorem acknowledgeRecords_endsApart (n : Nat) (s : State) : EndsApart (acknowledgeRecords n) s :=
  EndsApart.then (f := fun s => complete .ok (natBytes 1 n ++ natBytes 1 (level (removeOldest n s))) (removeOldest n s))
    ((removeOldest_apart n).endsApart .ok (natBytes 1 n ++ natBytes 1 (level (removeOldest n s))) fun l => by
      rw [(removeOldest_apart n).withLink]; rfl) endHoldBySpace_apart

theorem flushRecords_endsApart (s : State) : EndsApart flushRecords s :=
  (ite_endsApart (f := fun t => complete .ok (natBytes 1 0) (removeOldest 0 t))
    (g := fun t => endHoldBySpace (complete .ok (natBytes 1 (level s)) (removeOldest (level s) t))) (level s = 0)
    (fun _ => (removeOldest_apart 0).endsApart .ok (natBytes 1 0) fun _ => rfl)
    fun _ => EndsApart.then (f := fun t => complete .ok (natBytes 1 (level s)) (removeOldest (level s) t))
      ((removeOldest_apart (level s)).endsApart .ok (natBytes 1 (level s)) fun _ => rfl) endHoldBySpace_apart).congr
    fun _ => rfl

theorem runCommand_endsApart (c : Command) (s : State) : EndsApart (runCommand c) s := by
  cases c with
  | nop => exact complete_endsApart .ok [] s
  | partStatus => exact answer_endsApart .ok partStatusPayload s
  | alertStatus => exact answer_endsApart .ok alertStatusPayload s
  | ping echo =>
    exact ite_endsApart (echo.length ≤ 8) (fun _ => complete_endsApart _ _ s) fun _ => complete_endsApart _ _ s
  | readConfig => exact unlessStarting_endsApart (answer_endsApart .ok (configBytes ·.control.config) s)
  | captureInfo => exact unlessStarting_endsApart (answer_endsApart .ok captureInfoPayload s)
  | lastAccess => exact unlessStarting_endsApart (answer_endsApart .ok (lastAccessBytes ·.forward.lastAccess) s)
  | sweepStatus => exact unlessStarting_endsApart (answer_endsApart .ok (sweepStatusPayload ·.sweep) s)
  | engage | tableCommit => exact unlessStarting_endsApart (atBoundary_endsApart _ s)
  | disengage force =>
    refine unlessStarting_endsApart ?_
    cases onOff force with
    | some f => exact atBoundary_endsApart _ s
    | none => exact complete_endsApart _ _ s
  | softReset => exact unlessStarting_endsApart (takeSoftReset_endsApart s)
  | setConfig f =>
    refine unlessStarting_endsApart ?_
    cases checkConfigFields f with
    | some c => exact (writeConfig_apart c).endsApart _ _ fun _ => rfl
    | none => exact complete_endsApart _ _ s
  | alertAck causes =>
    refine unlessStarting_endsApart (ite_endsApart _ (fun _ => ?_) fun _ => complete_endsApart _ _ s)
    refine (clearCauses_apart (BitVec.ofNat 14 causes)).endsApart .ok
      (causeSetBytes (clearCauses (BitVec.ofNat 14 causes) s).control.causes) fun l => ?_
    rw [ackCauses, (clearCauses_apart _).withLink]; rfl
  | slotStage slot f =>
    refine onSlot_endsApart slot ?_
    cases checkSlotFields slot f with
    | ok c => exact endsApart_of_complete (s.setSlot slot (stageSlot c (s.slot slot))) _ _ rfl fun _ => rfl
    | error st => exact complete_endsApart _ _ s
  | slotUnstage slot =>
    exact onSlot_endsApart slot
      (endsApart_of_complete (s.setSlot slot (unstageSlot (s.slot slot))) _ _ rfl fun _ => rfl)
  | tableDiscard =>
    exact unlessStarting_endsApart (endsApart_of_complete (s.withTable (s.table.map unstageSlot)) _ _ rfl fun _ => rfl)
  | slotRead slot => exact onSlot_endsApart slot (answer_endsApart .ok (fun s => slotReadBytes (s.slot slot)) s)
  | slotState slot state =>
    refine onSlot_endsApart slot ?_
    cases namedState state with
    | some st => exact atBoundary_endsApart _ s
    | none => exact complete_endsApart _ _ s
  | slotAck slot => exact onSlot_endsApart slot (atBoundary_endsApart _ s)
  | captureRead skip count =>
    exact unlessStarting_endsApart (ite_endsApart (skip ≤ 63 ∧ (count = 1 ∨ count = 2)) (fun _ =>
      answer_endsApart .ok (fun s => captureReadPayload ((s.capture.queue.drop skip).take count)) s) fun _ =>
      complete_endsApart .range [] s)
  | captureAck sequence =>
    refine unlessStarting_endsApart ?_
    cases hn : ackCount (BitVec.ofNat 16 sequence) s.capture.queue with
    | some n => exact (acknowledgeRecords_endsApart n s).congr fun l => by simp only [State.withLink_capture, hn]
    | none =>
      exact (complete_endsApart .notFound (natBytes 1 (level s)) s).congr fun l => by
        simp only [State.withLink_capture, hn]; rfl
  | captureFlush => exact unlessStarting_endsApart (flushRecords_endsApart s)
  | readRaw | writeRaw | writeVerify =>
    exact unlessStarting_endsApart
      (ite_endsApart _ (fun _ => beginAccess_endsApart _ s) fun _ => complete_endsApart _ _ s)
  | readView addr count =>
    exact unlessStarting_endsApart
      (ite_endsApart _ (fun _ => takeReadView_endsApart addr count s) fun _ => complete_endsApart _ _ s)
  | storeRead offset count =>
    exact unlessStarting_endsApart (ite_endsApart (storeRange offset count = true) (fun _ =>
      answer_endsApart .ok (fun s => storeReadPayload (storeReadRange s.store offset count)) s) fun _ =>
      complete_endsApart .range [] s)
  | storeWrite offset poison words =>
    refine unlessStarting_endsApart ?_
    cases storeRange offset words.length <;> cases onOff poison
    case true.some p => exact atBoundary_endsApart (.storeWrite offset p words) s
    all_goals exact complete_endsApart .range [] s
  | sweepCheck | sweepPush => exact checkStart_endsApart _ (startSweep_endsApart _ s)
  | sweepFill addr count offset => exact checkStart_endsApart _ (takeSweepFill_endsApart addr count offset s)
  | sweepSuspend => exact unlessStarting_endsApart (takeSweepSuspend_endsApart s)
  | sweepResume => exact unlessStarting_endsApart (takeSweepResume_endsApart s)
  | sweepAbort => exact unlessStarting_endsApart (takeSweepAbort_endsApart s)

theorem runQueued_endsApart (q : QueuedCommand) (s : State) : EndsApart (runQueued q) s := by
  unfold runQueued
  cases parseCommand q.code q.args with
  | unknown => exact complete_endsApart _ _ s
  | badLength => exact complete_endsApart _ _ s
  | ok c => exact runCommand_endsApart c s

/-- A command at the head of the queue starts with the pins as they were. -/
theorem EndsApart.pins {f : State → State} {s : State} (h : EndsApart f s) (hc : s.link.commands ≠ []) :
    (f s).pins = s.pins := by
  obtain ⟨u, e, hp, hend⟩ := h
  have := congrArg State.pins (hend s.link hc)
  rwa [State.withLink_self, State.withLink_pins, hp] at this

end Sys2Proof.Proofs

namespace Sys2Proof.Proofs

open Sys2Proof.Machine

set_option Elab.async false

/-! ## RESET stays released

Only POWER_ON_RESET makes RESET active; every other row reaches the pins by FBYP, LSEL and MARK alone. -/

/-- RESET is not active. -/
def Running (s : State) : Prop := s.pins.reset = false

theorem running_of_pins {f : State → State} (hf : ∀ s, (f s).pins = s.pins) : Keeps Running f := fun s h => by
  rw [Running, hf]; exact h

/-- The MARK pulses of a settle leave RESET. -/
theorem settle_running (r : BusRequest) (d : Decided) (o : RequestOutcome) (resp : BusResponse) :
    Keeps Running (settle r d o resp) := fun s h => by
  rw [Running, settle_pins]
  exact (alike_accountSlots _ _ _ _ s).reset.trans h

theorem presentRequest_running (r : BusRequest) : Keeps Running (presentRequest r) := by
  intro s h
  unfold presentRequest
  split
  · exact routeRequest_keeps (fun f => running_of_pins (requestPort_pins f)) settle_running
      (fun r resp => running_of_pins (giveResponse_pins r resp)) (fun c => running_of_pins (raise_pins c)) _
      (running_of_pins sampleFbyp_pins h)
  · exact h

theorem hostAnswered_running (f : Flight) (resp : BusResponse) : Keeps Running (hostAnswered f resp) :=
  hostAnswered_keeps settle_running (fun r resp => running_of_pins (giveResponse_pins r resp))
    (fun c => running_of_pins (raise_pins c)) (fun b => running_of_pins (freePort_pins b)) f resp

theorem hostTimedOut_running (f : Flight) : Keeps Running (hostTimedOut f) :=
  hostTimedOut_keeps settle_running (fun r resp => running_of_pins (giveResponse_pins r resp))
    (fun c => running_of_pins (raise_pins c)) (fun b => running_of_pins (freePort_pins b)) f

theorem expireTimeout_running : Keeps Running expireTimeout := by
  intro s h
  unfold expireTimeout
  split
  · split
    · exact hostTimedOut_running _ h
    · exact h
  · split
    · exact running_of_pins (linkTimedOut_pins _) h
    · exact h
  · split
    · exact running_of_pins (sweepTimedOut_pins _) h
    · exact h
  · exact h

theorem executeBoundary_running : Keeps Running executeBoundary :=
  executeBoundary_keeps fun b => running_of_pins (carry_pins b)

theorem startHead_pins (s : State) : (startHead s).pins = s.pins := by
  unfold startHead
  split
  next q rest hq =>
    split
    · exact (runQueued_endsApart q (reserve q.seq s)).pins (by simp [reserve, hq])
    · rfl
  next => rfl

theorem considerNext_running : Keeps Running considerNext := by
  have started (n : Nat) : Keeps Running (startNext n) := by
    induction n with
    | zero => exact fun _ h => h
    | succ n ih => exact fun _ h => ih (running_of_pins startHead_pins h)
  exact fun _ h => started _ h

/-! ## Nothing startable waits: RESET released -/

/-- With RESET released the constraint on the start says that the head may not start (R158). -/
theorem startSound_of_running {s : State} (hr : Running s) (h : mayStart s = false) : StartSound s := by
  refine ⟨fun hc => ?_, fun hreset => nomatch hr.symm.trans hreset⟩
  by_cases he : s.link.executing = none
  · have hlen : ¬ s.link.responses.length < Config.linkDepth := fun hlt => by
      simp [mayStart, show s.pins.reset = false from hr, hc, he, hlt] at h
    exact .inr (Nat.not_lt.mp hlen)
  · exact .inl he

/-- An event that leaves the link interface lets nothing start. -/
theorem startSound_of_link {s t : State} (h : StartSound s) (hr : Running t) (hlink : t.link = s.link) : StartSound t :=
  startSound_of_running hr (mayStart_of_link h hlink)

/-- An event that considers the next command leaves none that may start (R160). -/
theorem startSound_considerNext {s : State} (hr : Running s) : StartSound (considerNext s) :=
  startSound_of_running (considerNext_running hr) (considerNext_settles s)

/-- A command's row queues it behind others, or starts it, so that it is gone or executes (R157, R158). -/
theorem startSound_submit {s : State} (hr : Running s) (h : StartSound s) (q : QueuedCommand) {run : State → State}
    (hpins : ∀ s : State, s.link.commands ≠ [] → (run s).pins = s.pins)
    (hran : ∀ s : State, s.link.commands ≠ [] → Ran s (run s)) : StartSound (submit q run s) := by
  have hreset : s.pins.reset = false := hr
  unfold submit
  rw [if_neg (by simp [hreset])]
  split
  next =>
    refine startSound_of_running hr ?_
    exact (mayStart_of_startSound h : mayStart s = false)
  next =>
    split
    next hs =>
      have hempty : s.link.commands = [] := List.isEmpty_iff.mp (Bool.and_eq_true_iff.mp hs).1
      have hq : (enqueue q s).link.commands = [q] := by simp [enqueue, hempty]
      have hne : (reserve q.seq (enqueue q s)).link.commands ≠ [] := by rw [reserve, State.withLink_link, hq]; simp
      simp only [startWith, hq]
      have hrun : Running (run (reserve q.seq (enqueue q s))) := by rw [Running, hpins _ hne]; exact hr
      refine startSound_of_running hrun ?_
      rcases hran _ hne with ⟨-, hgone⟩ | ⟨hexec, -⟩
      · have hgone : (run (reserve q.seq (enqueue q s))).link.commands = [] := by
          rw [hgone, reserve, State.withLink_link, hq]; rfl
        simp [mayStart, hgone]
      · exact mayStart_of_executing hexec
    next hs =>
      refine startSound_of_running hr ?_
      by_cases hempty : s.link.commands.isEmpty = true
      · simpa [hempty] using hs
      · rcases h.1 (mt List.isEmpty_iff.mpr hempty) with he | hlen
        · exact mayStart_of_executing (Option.isSome_iff_ne_none.mpr he)
        · simp [mayStart, enqueue, Nat.not_lt.mpr hlen]

theorem startSound_clockTimeout {s : State} (hr : Running s) (h : StartSound s) :
    Running (clockTimeout s) ∧ StartSound (clockTimeout s) := by
  unfold clockTimeout
  split
  · exact ⟨hr, h⟩
  · split
    · exact ⟨considerNext_running (expireTimeout_running hr), startSound_considerNext (expireTimeout_running hr)⟩
    · exact ⟨hr, h⟩

theorem startSound_busClock {s : State} (hr : Running s) (h : StartSound s) : StartSound (busClock s) := by
  have hreset : s.pins.reset = false := hr
  unfold busClock
  rw [if_neg (by simp [hreset])]
  have cleared : Running (clockMark (clockClear s)) := by
    rw [Running, clockMark, State.withPins_pins, clockClear_pins]; exact hr
  obtain ⟨hrun, hstart⟩ := startSound_clockTimeout cleared (startSound_of_link h cleared (by simp))
  exact startSound_of_link hstart (running_of_pins clockHold_pins (running_of_pins clockPrescale_pins hrun)) (by simp)

theorem execDownstreamResponse_startSound {s : State} (hr : Running s) (h : StartSound s) (resp : BusResponse) :
    NextIn StartSound (execDownstreamResponse resp s) := by
  unfold execDownstreamResponse
  split
  · exact nextIn_checked (startSound_of_link h (hostAnswered_running _ _ hr) (hostAnswered_link _ _ s)) _ _
  · exact nextIn_next h

theorem execLinkAccessResponse_startSound {s : State} (hr : Running s) (h : StartSound s) (resp : BusResponse) :
    NextIn StartSound (execLinkAccessResponse resp s) := by
  unfold execLinkAccessResponse
  split
  · exact nextIn_checked (startSound_considerNext (running_of_pins (linkAccessAnswered_pins _ _) hr)) _ _
  · exact nextIn_next h

theorem execSweepBlockResponse_startSound {s : State} (hr : Running s) (h : StartSound s) (resp : BusResponse) :
    NextIn StartSound (execSweepBlockResponse resp s) := by
  unfold execSweepBlockResponse
  split
  · exact nextIn_checked (startSound_considerNext (running_of_pins (sweepAnswered_pins _ _ _) hr)) _ _
  · exact nextIn_next h

theorem execStoreUpset_startSound {s : State} (h : StartSound s) (offset : Nat) (data : Word) :
    NextIn StartSound (execStoreUpset offset data s) := by
  unfold execStoreUpset
  split
  · exact nextIn_next h
  · exact nextIn_fault _ _

/-- The assertion of LSEL leaves the queues and the executing command (R150). -/
theorem startSound_assertLsel {s : State} (hr : Running s) (h : StartSound s) : StartSound (assertLsel s) := by
  unfold assertLsel
  split
  · exact h
  · split
    · exact h
    · exact ⟨h.1, fun hreset => nomatch hr.symm.trans hreset⟩

/-- Every row but POWER_ON_RESET, with RESET released. -/
theorem exec_startSound_running (i : Instr) (hi : i ≠ .powerOnReset) {s : State} (hr : Running s) (h : StartSound s) :
    NextIn StartSound (exec i s) := by
  cases hc : i.command with
  | some p =>
    rw [exec_of_command (q := p.1) (c := p.2) hc]
    exact nextIn_next (startSound_submit hr h _ (fun s hs => (runCommand_endsApart p.2 s).pins hs) fun _ hs =>
      runCommand_ran p.2 hs)
  | none =>
    cases i with
    | powerOnReset => exact absurd rfl hi
    | resetRelease => exact nextIn_next (startSound_of_link h rfl (releaseReset_link s))
    | startupClearComplete =>
      exact nextIn_next (startSound_of_link h (running_of_pins completeClear_pins hr) (completeClear_link s))
    | fbypAssert =>
      refine nextIn_next (startSound_of_link h ?_ (assertFbyp_link s))
      unfold assertFbyp
      split
      · exact running_of_pins sampleFbyp_pins (s := s.withPins { s.pins with fbyp := true }) hr
      · exact hr
    | fbypRelease | markPulseEnd => exact nextIn_next (startSound_of_link h hr rfl)
    | storeUpset offset data => exact execStoreUpset_startSound h offset data
    | hostRequestAccept r =>
      exact nextIn_checked (startSound_of_link h (presentRequest_running r hr) (presentRequest_link r s)) _ _
    | downstreamResponse resp => exact execDownstreamResponse_startSound hr h resp
    | linkAccessResponse resp => exact execLinkAccessResponse_startSound hr h resp
    | sweepBlockResponse resp => exact execSweepBlockResponse_startSound hr h resp
    | downstreamTimeoutExpiry => exact nextIn_next (startSound_considerNext (expireTimeout_running hr))
    | holdExpiry => exact nextIn_next (startSound_of_link h (running_of_pins endHoldByDrop_pins hr) (endHoldByDrop_link s))
    | timestampTick =>
      refine nextIn_next ?_
      split
      · exact h
      · exact startSound_of_link h (running_of_pins tick_pins hr) (tick_link s)
    | lselAssert => exact nextIn_next (startSound_assertLsel hr h)
    | exchangeEnd ldi => exact nextIn_next (startSound_considerNext (running_of_pins (endExchange_pins ldi) hr))
    | commandStart => exact nextIn_next (startSound_considerNext hr)
    | unknownCommand seq code args =>
      exact nextIn_next (startSound_submit hr h _ (fun s hs => (runQueued_endsApart _ s).pins hs) fun _ hs =>
        runQueued_ran _ hs)
    | boundaryCommandExecution => exact nextIn_next (startSound_considerNext (executeBoundary_running hr))
    | _ => cases hc

/-! ## Nothing startable waits: RESET active

A link interface with no command and no exchange has none after any row, since the part takes no frame and LSEL begins no
exchange while RESET is active (R150). -/

/-- The link interface holds no command and no exchange. -/
def Vacant (s : State) : Prop := s.link.commands = [] ∧ s.link.exchange = none

theorem vacant_of_link {f : State → State} (hf : ∀ s, (f s).link = s.link) : Keeps Vacant f := fun s h => by
  rw [Vacant, hf]; exact h

theorem Vacant.startSound {s : State} (h : Vacant s) : StartSound s := ⟨fun hc => absurd h.1 hc, fun _ => h⟩

/-- With no command in the queue none completes. -/
theorem complete_of_vacant {s : State} (h : Vacant s) (st : Status) (p : List Byte) : complete st p s = s := by
  simp [complete, h.1]

theorem complete_vacant (st : Status) (p : List Byte) : Keeps Vacant (complete st p) := fun s h => by
  rw [complete_of_vacant h]; exact h

theorem softResetChange_vacant : Keeps Vacant softResetChange := fun s h =>
  complete_vacant .ok [] (s := changedBySoftReset s) h

theorem afterOwnEnd_vacant : Keeps Vacant afterOwnEnd := by
  intro s h
  unfold afterOwnEnd
  split
  · exact complete_vacant _ _ h
  · exact complete_vacant _ _ h
  · exact softResetChange_vacant h
  · exact h

theorem blockCompleted_vacant : Keeps Vacant blockCompleted := by
  intro s h
  unfold blockCompleted
  split
  · exact h
  · split
    · exact afterOwnEnd_vacant (vacant_of_link (endSweep_link _) h)
    · split
      · exact complete_vacant _ _ (s := s.withSweep _) h
      · exact complete_vacant _ _ (vacant_of_link (endSweep_link _) h)
      · exact softResetChange_vacant h
      · exact vacant_of_link takeBlock_link h

theorem blockAnswered_vacant (r : SweepRecord) (b : Block) (data : List Word) :
    Keeps Vacant (blockAnswered r b data) := by
  intro s h
  have completed {t : State} (ht : t.link = s.link) : Vacant (blockCompleted (freePort false t)) :=
    blockCompleted_vacant (by rw [Vacant, freePort_link, ht]; exact h)
  unfold blockAnswered
  split
  · exact completed (updateRecord_link _ _)
  · exact completed (updateRecord_link _ _)
  · exact completed (updateRecord_link _ _)
  · exact completed (updateRecord_link _ _)
  · rw [Vacant, present_link, freePort_link]; exact h

theorem blockFailed_vacant (a : Bool) (c : FailCause) (b : Block) : Keeps Vacant (blockFailed a c b) := fun _ h =>
  afterOwnEnd_vacant (vacant_of_link (failSweep_link _ _) (vacant_of_link (freePort_link a) h))

theorem sweepAnswered_vacant (r : SweepRecord) (b : Block) (resp : BusResponse) :
    Keeps Vacant (sweepAnswered r b resp) := by
  intro s h
  cases resp with
  | error => exact blockFailed_vacant _ _ _ (vacant_of_link (raise_link _) h)
  | okay data => exact blockAnswered_vacant r b data h

theorem finishAccess_vacant (a : Bool) (st : Status) (p : List Byte) : Keeps Vacant (finishAccess a st p) := fun s h =>
  vacant_of_link (freePort_link a) (complete_vacant st p (s := s.withAccess .idle) h)

theorem linkAccessAnswered_vacant (job : AccessJob) (resp : BusResponse) :
    Keeps Vacant (Machine.linkAccessAnswered job resp) := by
  intro s h
  cases resp with
  | error => exact finishAccess_vacant _ _ _ (vacant_of_link (raise_link _) h)
  | okay data =>
    simp only [Machine.linkAccessAnswered, linkAnswered]
    split
    · exact finishAccess_vacant _ _ _ h
    · exact finishAccess_vacant _ _ _ h
    · exact finishAccess_vacant _ _ _ h
    · exact vacant_of_link (nextVerifyStep_link _) h
    · exact vacant_of_link (nextVerifyStep_link _) h
    · exact finishAccess_vacant _ _ _ h

theorem expireTimeout_vacant : Keeps Vacant expireTimeout := by
  intro s h
  unfold expireTimeout
  split
  · split
    · exact vacant_of_link (hostTimedOut_link _) h
    · exact h
  · split
    · exact finishAccess_vacant _ _ _ (vacant_of_link (raise_link _) h)
    · exact h
  · split
    · exact blockFailed_vacant _ _ _ (vacant_of_link (raise_link _) h)
    · exact h
  · exact h

theorem executeBoundary_vacant : Keeps Vacant executeBoundary := by
  refine executeBoundary_keeps fun b s h => ?_
  obtain ⟨u, e, hact⟩ := carry_actsApart b s
  have hlink : (carry b s).link = boundaryEnd e s.link := congrArg State.link (hact s.link)
  rw [Vacant, hlink]
  rcases e with _ | ⟨st, p⟩
  · exact h
  · have : completeLink st p s.link = s.link := by simp [completeLink, h.1]
    rw [boundaryEnd, this]; exact h

theorem considerNext_vacant : Keeps Vacant considerNext := fun s h => by rw [considerNext_of_empty h.1]; exact h

theorem exec_vacant (i : Instr) {s : State} (hr : s.pins.reset = true) (h : Vacant s) : NextIn Vacant (exec i s) := by
  have same {t : State} (hlink : t.link = s.link) : NextIn Vacant (.next t) :=
    nextIn_next (by rw [Vacant, hlink]; exact h)
  cases hc : i.command with
  | some p =>
    rw [exec_of_command (q := p.1) (c := p.2) hc]
    exact same (congrArg State.link (submit_reset hr _ _))
  | none =>
    cases i with
    | powerOnReset => exact nextIn_next ⟨rfl, rfl⟩
    | resetRelease | fbypRelease | markPulseEnd => exact nextIn_next h
    | startupClearComplete => exact same (completeClear_link s)
    | fbypAssert => exact same (assertFbyp_link s)
    | storeUpset offset data =>
      simp only [exec, execStoreUpset]
      split
      · exact nextIn_next h
      · exact nextIn_fault _ _
    | hostRequestAccept r => exact nextIn_checked (vacant_of_link (presentRequest_link r) h) _ _
    | downstreamResponse resp =>
      simp only [exec, execDownstreamResponse]
      split
      · exact nextIn_checked (vacant_of_link (hostAnswered_link _ _) h) _ _
      · exact nextIn_next h
    | linkAccessResponse resp =>
      simp only [exec, execLinkAccessResponse]
      split
      · exact nextIn_checked (considerNext_vacant (linkAccessAnswered_vacant _ _ h)) _ _
      · exact nextIn_next h
    | sweepBlockResponse resp =>
      simp only [exec, execSweepBlockResponse]
      split
      · exact nextIn_checked (considerNext_vacant (sweepAnswered_vacant _ _ _ h)) _ _
      · exact nextIn_next h
    | downstreamTimeoutExpiry => exact nextIn_next (considerNext_vacant (expireTimeout_vacant h))
    | holdExpiry => exact same (endHoldByDrop_link s)
    | timestampTick => exact same (congrArg State.link (if_pos hr))
    | lselAssert =>
      simp only [exec, execLselAssert, assertLsel]
      split
      · exact nextIn_next h
      · exact nextIn_next h
    | exchangeEnd ldi =>
      have hs : endExchange ldi (s.withPins { s.pins with lsel := false }) = s.withPins { s.pins with lsel := false } := by
        simp [endExchange, h.2]
      simp only [exec, execExchangeEnd, hs]
      exact nextIn_next (considerNext_vacant (s := s.withPins _) h)
    | commandStart => exact nextIn_next (considerNext_vacant h)
    | unknownCommand seq code args => exact same (congrArg State.link (submit_reset hr _ _))
    | boundaryCommandExecution => exact nextIn_next (considerNext_vacant (executeBoundary_vacant h))
    | _ => cases hc

/-! ## Nothing startable waits -/

theorem exec_startSound (i : Instr) {s : State} (h : StartSound s) : NextIn StartSound (exec i s) := by
  cases hr : s.pins.reset with
  | true => exact fun t ht => (exec_vacant i hr (h.2 hr) ht).startSound
  | false =>
    by_cases hi : i = .powerOnReset
    · subst hi; exact nextIn_next (Vacant.startSound ⟨rfl, rfl⟩)
    · exact exec_startSound_running i hi hr h

theorem busClock_startSound : Keeps StartSound busClock := by
  intro s h
  cases hr : s.pins.reset with
  | true => rw [busClock, if_pos hr]; exact h
  | false => exact startSound_busClock hr h

/-- Settles O8. With RESET released every row leaves the link interface, queues a command behind others, or considers the
head for its start last; with RESET active there is no command to start, and none comes. -/
theorem noStartableCommandWaits : Obligations.NoStartableCommandWaits := fun _ _ hs hstep =>
  step_keeps (fun _ _ h => h) busClock_startSound (fun i _ h => exec_startSound i h) hs hstep

end Sys2Proof.Proofs

namespace Sys2Proof.Proofs

open Sys2Proof.Machine

set_option Elab.async false

/-! ## Answers in every part state

What a ready link answers does not need the part to be past STARTING: the answer STARTING itself, UNKNOWN, and the
commands that every part state carries out (R159, R162, R163, R182, R183). -/

/-- A command that its block answers at once at a ready link, with no other effect, in whatever part state. -/
theorem exec_of_linkAnswer {i : Instr} {q : Byte} (c : Command) {s : State} (hr : LinkReady s) {st : Status}
    {p : List Byte}
    (hc : runCommand c (startedState (queuedOf q c) s) = complete st p (startedState (queuedOf q c) s))
    (h : i.command = some (q, c) := by rfl) : exec i s = .next (answered q st p s) := by
  rw [exec_of_command h, submitCommand_ready hr]
  exact congrArg Host.Outcome.next (hc.trans (complete_startedState hr _ st p))

/-- The commands carried out in STARTING too (R167). -/
theorem runCommand_starting {c : Command} (hnop : c ≠ .nop) (hping : ∀ echo, c ≠ .ping echo) (hpart : c ≠ .partStatus)
    (halert : c ≠ .alertStatus) {s : State} (h : s.control.part = .starting) :
    runCommand c s = complete .starting [] s := by
  have checked {f g : State → State} (hf : f = unlessStarting g) : f s = complete .starting [] s :=
    hf ▸ unlessStarting_starting h g
  cases c with
  | nop => exact absurd rfl hnop
  | ping echo => exact absurd rfl (hping echo)
  | partStatus => exact absurd rfl hpart
  | alertStatus => exact absurd rfl halert
  | _ => exact checked rfl

/-- A code that R188 does not assign names no command. -/
theorem parseCommand_unassigned {code : Nat} (h : assignedCodes.contains code = false) (args : List Byte) :
    parseCommand code args = .unknown := by
  unfold parseCommand
  split
  case h_36 => rfl
  all_goals exact absurd h (by decide)

/-- Settles O31. -/
theorem startingAndUnknownAnswered : Obligations.StartingAndUnknownAnswered := by
  refine ⟨fun i q c s hc hnop hping hpart halert hr hs => ?_, fun s q code args hr hcode => ?_⟩
  · exact exec_of_linkAnswer c hr (runCommand_starting hnop hping hpart halert hs) hc
  · have hrun : runQueued ⟨q, code, args⟩ = complete .unknown [] := by
      rw [runQueued, parseCommand_unassigned hcode]; rfl
    refine congrArg Host.Outcome.next ((submit_ready hr ⟨q, code, args⟩ _).trans ?_)
    rw [hrun]
    exact complete_startedState hr _ _ _

/-! ## A link that is not ready -/

/-- Settles O32. -/
theorem commandsQueuedOrRefused : Obligations.CommandsQueuedOrRefused := by
  intro i q c s hc
  rw [exec_of_command hc]
  refine ⟨fun hr => ?_, fun hr hspace hwait => ?_, fun hr hfull => ?_⟩
  · exact congrArg Host.Outcome.next (submit_reset hr _ _)
  · have hf : queueFull s = false := by simpa [queueFull, Config.linkDepth] using hspace
    exact congrArg Host.Outcome.next (submit_queued hr hf hwait _ _)
  · have hf : queueFull s = true := by simpa [queueFull, Config.linkDepth] using hfull
    refine ⟨refuse q .full s, congrArg Host.Outcome.next (submit_full hr hf _ _), ?_⟩
    exact ⟨rfl, rfl, rfl, rfl, rfl, rfl, rfl, rfl⟩

/-! ## PING and the reading commands -/

/-- Settles O44. -/
theorem pingEchoes : Obligations.PingEchoes := by
  intro s q echo hr
  exact ⟨fun h => exec_of_linkAnswer (.ping echo) hr (if_pos h),
    fun h => exec_of_linkAnswer (.ping echo) hr (if_neg (Nat.not_le.mpr h))⟩

/-- Past STARTING a command that reads answers what it reads, and changes nothing. -/
theorem exec_of_reading {i : Instr} {q : Byte} (c : Command) {s : State} (hr : Ready s) (p : State → List Byte)
    (hc : ∀ t, t.control.part ≠ .starting → runCommand c t = complete .ok (p t) t)
    (hp : p (startedState (queuedOf q c) s) = p s := by rfl) (h : i.command = some (q, c) := by rfl) :
    exec i s = .next (answered q .ok (p s) s) :=
  exec_of_answer c hr (by rw [hc _ (started_past hr _), hp]) h

theorem storeReadPayload_range (m : Store) (offset count : Nat) :
    storeReadPayload (storeReadRange m offset count) =
      natBytes 2 (bitsNat ((List.range count).map (fun i => (storeRead m (offset + i)).bad))) ++
        (List.range count).flatMap (fun i => wordBytes (storeRead m (offset + i)).data) := by
  simp [storeReadPayload, storeReadRange, List.map_map, List.flatMap_map, Function.comp_def]

/-- Settles O45. -/
theorem readingCommandsChangeNothing : Obligations.ReadingCommandsChangeNothing := by
  refine ⟨fun s q hr => ⟨?_, ?_, ?_⟩, fun s q hr => ⟨?_, fun slot hs => ?_, fun skip count hskip hone htwo => ?_, ?_, ?_,
    fun offset count hone hmost hspace => ?_, ?_⟩⟩
  · exact exec_of_linkAnswer .nop hr rfl
  · exact exec_of_linkAnswer .partStatus hr rfl
  · exact exec_of_linkAnswer .alertStatus hr rfl
  · exact exec_of_reading .readConfig hr (configBytes ·.control.config) fun _ hp => unlessStarting_past hp _
  · exact exec_of_reading (.slotRead slot) hr (fun s => slotReadBytes (s.slot slot)) fun _ hp => by
      rw [runCommand, runSlotRead, onSlot_of_lt hp hs]
  · have hrange : skip ≤ 63 ∧ (count = 1 ∨ count = 2) := by omega
    exact exec_of_reading (.captureRead skip count) hr
      (fun s => captureReadPayload ((s.capture.queue.drop skip).take count)) fun _ hp => by
      rw [runCommand, runCaptureRead, unlessStarting_past hp, if_pos hrange]
  · exact exec_of_reading .captureInfo hr captureInfoPayload fun _ hp => unlessStarting_past hp _
  · exact exec_of_reading .lastAccess hr (lastAccessBytes ·.forward.lastAccess) fun _ hp => unlessStarting_past hp _
  · have hrange : storeRange offset count = true := by
      simp only [storeRange, Config.storeWords, Bool.and_eq_true, decide_eq_true_eq]
      omega
    rw [← storeReadPayload_range]
    exact exec_of_reading (.storeRead offset count) hr
      (fun s => storeReadPayload (storeReadRange s.store offset count)) fun _ hp => by
      rw [runCommand, runStoreRead, unlessStarting_past hp, if_pos hrange]
  · exact exec_of_reading .sweepStatus hr (sweepStatusPayload ·.sweep) fun _ hp => unlessStarting_past hp _

end Sys2Proof.Proofs

namespace Sys2Proof.Proofs

open Sys2Proof.Machine

set_option Elab.async false

/-! ## The argument bytes of a command, read back

An argument stands behind the fields before it and before those behind it: the first are skipped, and it is then read at
the front (R184, R188). -/

theorem argNat_skip {pre : List Byte} {i : Nat} (h : pre.length ≤ i) (rest : List Byte) (n : Nat) :
    argNat (pre ++ rest) i n = argNat rest (i - pre.length) n := by
  rw [argNat, argNat, List.drop_append, List.drop_of_length_le h, List.nil_append]

theorem argNat_front {n v : Nat} (h : fits n v = true) (rest : List Byte) : argNat (natBytes n v ++ rest) 0 n = v := by
  rw [argNat, List.drop_zero, List.take_left' (natBytes_length n v), bytesNat_natBytes h]

theorem argNat_only {n v : Nat} (h : fits n v = true) : argNat (natBytes n v) 0 n = v := by
  simpa using argNat_front h []

theorem argWord_skip {pre : List Byte} {i : Nat} (h : pre.length ≤ i) (rest : List Byte) :
    argWord (pre ++ rest) i = argWord rest (i - pre.length) := by
  rw [argWord, argWord, List.drop_append, List.drop_of_length_le h, List.nil_append]

theorem argWord_front (w : Word) (rest : List Byte) : argWord (wordBytes w ++ rest) 0 = w := by
  rw [argWord, List.drop_zero, List.take_left' (wordBytes_length w), bytesWord_wordBytes]

theorem argWord_only (w : Word) : argWord (wordBytes w) 0 = w := by simpa using argWord_front w []

theorem getD_front (a b : Byte) (rest : List Byte) : ([a] ++ rest).getD 0 b = a := rfl

theorem getD_only (a b : Byte) : [a].getD 0 b = a := rfl

theorem argConfigFields_bytes {f : ConfigFields} (h : f.wellFormed = true) :
    argConfigFields (configFieldBytes f) = f := by
  simp only [ConfigFields.wellFormed, Bool.and_eq_true] at h
  obtain ⟨⟨⟨⟨⟨⟨hprescale, htimeout⟩, hpatience⟩, hpolicy⟩, hhold⟩, hthreshold⟩, henable⟩ := h
  simp only [argConfigFields, configFieldBytes, List.append_assoc, argNat_skip, natBytes_length, argNat_front,
    argNat_only, *, Nat.reduceLeDiff, Nat.reduceSub, le_refl, Nat.sub_self]

/-- A slot configuration is read back behind the slot number (R189). -/
theorem argSlotFields_bytes {f : SlotFields} (h : f.wellFormed = true) (slot : Nat) :
    argSlotFields (natBytes 1 slot ++ slotFieldBytes f) 1 = f := by
  simp only [SlotFields.wellFormed, Bool.and_eq_true] at h
  obtain ⟨⟨⟨⟨⟨⟨⟨⟨hmode, hk⟩, hbase⟩, hkinds⟩, hoffset⟩, hlimit⟩, haction⟩, hlink⟩, hinitial⟩ := h
  obtain ⟨hcapture, halert, hmark⟩ := flagByte_three f.capture f.alert f.mark
  simp only [argSlotFields, slotFieldBytes, List.append_assoc, argNat_skip, natBytes_length, argNat_front, argNat_only,
    argLanes, List.getD_append_right, getD_front, byteLanes_lanesByte, List.length_singleton, *, Nat.reduceLeDiff,
    Nat.reduceSub, Nat.reduceAdd, le_refl, Nat.sub_self]

/-! ## Commands read back -/

/-- A command whose arguments have one length. -/
theorem parsed_of_length {c d : Command} {n : Nat}
    (hparse : parseCommand (commandCode c) (commandArgs c) = ofLength n (commandArgs c) d)
    (hn : (commandArgs c).length = n) (hd : d = c) : parseCommand (commandCode c) (commandArgs c) = .ok c := by
  rw [hparse, ofLength, if_pos hn, hd]

/-- The three commands whose arguments have more than one length (R188). -/
theorem parseCommand_writeRaw (args : List Byte) : parseCommand 0x32 args =
    if args.length < 4 then .badLength
    else ofLength (4 + 5 * argNat args 3 1) args (.writeRaw (argNat args 0 3) (argWriteWords (args.drop 4))) := rfl

theorem parseCommand_storeWrite (args : List Byte) : parseCommand 0x39 args =
    if args.length < 3 then .badLength
    else ofLength (4 + 4 * argNat args 2 1) args
      (.storeWrite (argNat args 0 2) (argNat args 3 1) (argWords (args.drop 4))) := rfl

theorem parseCommand_sweepCheck (args : List Byte) : parseCommand 0x40 args =
    if args.length = 10 then .ok (.sweepCheck (argNat args 0 3) (argNat args 3 3) (some (argWord args 6)))
    else ofLength 6 args (.sweepCheck (argNat args 0 3) (argNat args 3 3) none) := rfl

theorem parsed_writeRaw {addr : Nat} {words : List WriteWord} (ha : fits 3 addr = true) (hw : words.length ≤ 10) :
    parseCommand (commandCode (.writeRaw addr words)) (commandArgs (.writeRaw addr words)) =
      .ok (.writeRaw addr words) := by
  have hcount : fits 1 words.length = true := by simp [fits]; omega
  have hlen : (commandArgs (.writeRaw addr words)).length = 4 + 5 * words.length := by
    simp [commandArgs]; omega
  have haddr : argNat (commandArgs (.writeRaw addr words)) 0 3 = addr := by
    rw [commandArgs, List.append_assoc, argNat_front ha]
  have hnum : argNat (commandArgs (.writeRaw addr words)) 3 1 = words.length := by
    rw [commandArgs, List.append_assoc, argNat_skip (by simp), natBytes_length, argNat_front hcount]
  have hdata : argWriteWords ((commandArgs (.writeRaw addr words)).drop 4) = words := by
    rw [commandArgs, List.drop_left' (by simp), argWriteWords_flatMap]
  rw [commandCode, parseCommand_writeRaw, if_neg (by omega), hnum, haddr, hdata, ofLength, if_pos hlen]

theorem parsed_storeWrite {offset poison : Nat} {words : List Word} (ho : fits 2 offset = true)
    (hp : fits 1 poison = true) (hw : words.length ≤ 13) :
    parseCommand (commandCode (.storeWrite offset poison words)) (commandArgs (.storeWrite offset poison words)) =
      .ok (.storeWrite offset poison words) := by
  have hcount : fits 1 words.length = true := by simp [fits]; omega
  have hlen : (commandArgs (.storeWrite offset poison words)).length = 4 + 4 * words.length := by
    simp [commandArgs]; omega
  have hoffset : argNat (commandArgs (.storeWrite offset poison words)) 0 2 = offset := by
    rw [commandArgs, List.append_assoc, List.append_assoc, argNat_front ho]
  have hnum : argNat (commandArgs (.storeWrite offset poison words)) 2 1 = words.length := by
    rw [commandArgs, List.append_assoc, List.append_assoc, argNat_skip (by simp), natBytes_length, argNat_front hcount]
  have hpoison : argNat (commandArgs (.storeWrite offset poison words)) 3 1 = poison := by
    rw [commandArgs, List.append_assoc, argNat_skip (by simp)]
    simp only [List.length_append, natBytes_length, Nat.reduceAdd, Nat.sub_self, argNat_front hp]
  have hdata : argWords ((commandArgs (.storeWrite offset poison words)).drop 4) = words := by
    rw [commandArgs, List.drop_left' (by simp), argWords_flatMap]
  rw [commandCode, parseCommand_storeWrite, if_neg (by omega), hnum, hoffset, hpoison, hdata, ofLength, if_pos hlen]

/-- The bytes of a well-formed command are read back as that command (R188). -/
theorem parseCommand_encoded {c : Command} (h : c.wellFormed = true) :
    parseCommand (commandCode c) (commandArgs c) = .ok c := by
  cases c with
  | ping echo => exact if_pos (by simpa [Command.wellFormed, commandArgs] using h)
  | writeRaw addr words =>
    obtain ⟨ha, hw⟩ := Bool.and_eq_true_iff.mp h
    exact parsed_writeRaw ha (of_decide_eq_true hw)
  | storeWrite offset poison words =>
    obtain ⟨h, hw⟩ := Bool.and_eq_true_iff.mp h
    obtain ⟨ho, hp⟩ := Bool.and_eq_true_iff.mp h
    exact parsed_storeWrite ho hp (of_decide_eq_true hw)
  | setConfig f => exact parsed_of_length rfl (by simp [commandArgs]) (congrArg _ (argConfigFields_bytes h))
  | slotStage slot f =>
    obtain ⟨hslot, hf⟩ := Bool.and_eq_true_iff.mp h
    refine parsed_of_length rfl (by simp [commandArgs]) ?_
    rw [commandArgs, argNat_front hslot, argSlotFields_bytes hf]
  | sweepCheck addr count expected =>
    obtain ⟨ha, hc⟩ := Bool.and_eq_true_iff.mp h
    cases expected with
    | none =>
      refine parsed_of_length (n := 6) rfl (by simp [commandArgs]) ?_
      simp only [commandArgs, List.append_nil, argNat_front ha, argNat_skip, natBytes_length, Nat.sub_self, le_refl,
        argNat_only hc]
    | some w =>
      have hlen : (commandArgs (.sweepCheck addr count (some w))).length = 10 := by simp [commandArgs]
      rw [commandCode, parseCommand_sweepCheck, if_pos hlen]
      refine congrArg Parsed.ok ?_
      simp only [commandArgs, List.append_assoc, argNat_front ha, argNat_front hc, argNat_skip, argWord_skip,
        natBytes_length, Nat.reduceLeDiff, Nat.reduceSub, Nat.sub_self, le_refl, argWord_only]
  | writeVerify addr word =>
    refine parsed_of_length rfl (by simp [commandArgs]) ?_
    simp only [Command.wellFormed] at h
    simp only [commandArgs, writeWordBytes, argNat_front h, argWord_skip, argWord_front, argLanes, List.getD_append_right,
      getD_only, natBytes_length, wordBytes_length, Nat.reduceLeDiff, Nat.reduceSub, Nat.sub_self, le_refl, byteLanes_lanesByte]
  | _ =>
    refine parsed_of_length rfl (by simp [commandArgs]) ?_
    simp only [Command.wellFormed, Bool.and_eq_true] at h
    simp only [commandArgs, List.append_assoc, argNat_skip, natBytes_length, argNat_front, argNat_only, h, Nat.reduceLeDiff,
      Nat.reduceSub, Nat.sub_self, le_refl]

end Sys2Proof.Proofs

namespace Sys2Proof.Proofs

open Sys2Proof.Machine

set_option Elab.async false

/-! ## The start of the head of the queue -/

/-- A row's operands fit exactly where its command's arguments do. -/
theorem wellFormed_of_command {i : Instr} {q : Byte} {c : Command} (h : i.command = some (q, c))
    (hw : i.wellFormed = true) : c.wellFormed = true := by
  cases i <;> cases h <;> exact hw

/-- The link interface with a command at its head started, and others behind it (R158). -/
def startedLink (q : Byte) (c : Command) (rest : List QueuedCommand) (l : LinkInterface) : LinkInterface :=
  { l with commands := queuedOf q c :: rest, responses := l.responses ++ [.reserved q] }

theorem startHead_of_mayStart {s : State} {q : QueuedCommand} {rest : List QueuedCommand}
    (hq : s.link.commands = q :: rest) (h : mayStart s = true) : startHead s = runQueued q (reserve q.seq s) := by
  simp [startHead, hq, h]

/-- Where a link that is otherwise ready holds a well-formed command, its start is its block's meaning (R158, R159). -/
theorem startHead_queued {q : Byte} {c : Command} {s : State} (hr : LinkReady s) (hw : c.wellFormed = true)
    (rest : List QueuedCommand) :
    startHead (s.withLink { s.link with commands := queuedOf q c :: rest }) =
      runCommand c (s.withLink (startedLink q c rest s.link)) := by
  obtain ⟨hreset, -, he, hspace, -⟩ := hr
  have hstart : mayStart (s.withLink { s.link with commands := queuedOf q c :: rest }) = true := by
    simp [mayStart, hreset, he, hspace]
  have hrun : runQueued (queuedOf q c) = runCommand c := by
    rw [runQueued, queuedOf, parseCommand_encoded hw]; rfl
  rw [startHead_of_mayStart rfl hstart, hrun]
  rfl

/-- COMMAND_START with commands behind the head considers them after it (R160). -/
theorem exec_commandStart_queued {q : Byte} {c : Command} {s : State} (hr : LinkReady s) (hw : c.wellFormed = true)
    (rest : List QueuedCommand) :
    exec .commandStart (s.withLink { s.link with commands := queuedOf q c :: rest }) =
      .next (startNext rest.length (runCommand c (s.withLink (startedLink q c rest s.link)))) := by
  rw [← startHead_queued hr hw rest]; rfl

/-- A command's row at a ready link is its block's meaning at the started link. -/
theorem exec_row_ready {i : Instr} {q : Byte} {c : Command} {s : State} (hc : i.command = some (q, c))
    (hr : LinkReady s) : exec i s = .next (runCommand c (s.withLink (startedLink q c [] s.link))) := by
  rw [exec_of_command hc, submitCommand_ready hr]; rfl

/-- A command's row at a ready link is its start as the only command of the queue (R157, R158). -/
theorem exec_row_eq_commandStart {i : Instr} {q : Byte} {c : Command} {s : State} (hc : i.command = some (q, c))
    (hw : c.wellFormed = true) (hr : LinkReady s) :
    exec i s = exec .commandStart (s.withLink { s.link with commands := [queuedOf q c] }) := by
  rw [exec_row_ready hc hr, exec_commandStart_queued hr hw]; rfl

/-- Settles O34. A start ends in the same way whatever stands behind the head: where it answers, the machine is the one that
the row leaves, with the rest of the queue; where it waits, nothing more starts. -/
theorem commandStartRunsTheHead : Obligations.CommandStartRunsTheHead := by
  refine ⟨fun i q c s hc hw hr => ?_, fun s hs => ?_, fun i q c s t rest hc hw hr ht => ?_⟩
  · have hrow := exec_row_eq_commandStart hc (wellFormed_of_command hc hw) hr
    rw [exec_row_ready hc hr] at hrow ⊢
    exact ⟨_, rfl, hrow.symm⟩
  · exact congrArg Host.Outcome.next (considerNext_of_not hs)
  · obtain ⟨u, e, -, hend⟩ := runCommand_endsApart c s
    have hstart : exec .commandStart (s.withLink { s.link with commands := queuedOf q c :: rest }) =
        .next (startNext rest.length (u.withLink (e.apply (startedLink q c rest s.link)))) := by
      rw [exec_commandStart_queued hr (wellFormed_of_command hc hw), hend _ (by simp [startedLink])]
    rw [exec_row_ready hc hr, hend _ (by simp [startedLink])] at ht
    cases ht
    refine ⟨fun he => hstart.trans ?_, fun he => hstart.trans ?_⟩
    · cases e with
      | answer st p => rfl
      | wait x => cases he
    · cases e with
      | answer st p => exact absurd rfl he
      | wait x => rw [startNext_of_not _ (mayStart_of_executing rfl)]; rfl

end Sys2Proof.Proofs

namespace Sys2Proof.Proofs

open Sys2Proof.Machine

set_option Elab.async false

/-! ## The beginning of an exchange -/

theorem exists_causeNumber {i : Nat} (h : i < 14) : ∃ c, causeNumber c = i := by
  interval_cases i
  exacts [⟨.started, rfl⟩, ⟨.captureLevel, rfl⟩, ⟨.captureLoss, rfl⟩, ⟨.slotHit, rfl⟩, ⟨.slotLimit, rfl⟩,
    ⟨.slotLost, rfl⟩, ⟨.handoffMissed, rfl⟩, ⟨.storeParity, rfl⟩, ⟨.downError, rfl⟩, ⟨.downTimeout, rfl⟩,
    ⟨.malformed, rfl⟩, ⟨.sweepEnd, rfl⟩, ⟨.forcedBypass, rfl⟩, ⟨.linkRefusal, rfl⟩]

/-- Two cause sets meet exactly where some cause is in both (R179). -/
theorem causes_meet_iff (a b : CauseSet) : (a &&& b) ≠ 0 ↔ ∃ c, hasCause a c = true ∧ hasCause b c = true := by
  constructor
  · intro hne
    by_contra hnone
    refine hne (BitVec.eq_of_getLsbD_eq fun i hi => ?_)
    obtain ⟨c, rfl⟩ := exists_causeNumber hi
    have hc : ¬ (hasCause a c = true ∧ hasCause b c = true) := fun h => hnone ⟨c, h⟩
    simpa [hasCause] using hc
  · rintro ⟨c, ha, hb⟩ hzero
    have hbit := congrArg (fun v => v.getLsbD (causeNumber c)) hzero
    simp only [hasCause] at ha hb
    simp [ha, hb] at hbit

/-- ALERT is active exactly while some cause is both pending and enabled, outside RESET (R180, R168). -/
theorem alert_iff (s : State) : s.alert = true ↔ s.pins.reset = false ∧
    ∃ c, hasCause s.control.causes c = true ∧ hasCause s.control.config.enable c = true := by
  rw [← causes_meet_iff, State.alert, Bool.and_eq_true, Bool.not_eq_true', bne_iff_ne]

theorem assertLsel_released {s : State} (hr : s.pins.reset = false) (hl : s.pins.lsel = false) :
    assertLsel s = { s with
      pins := { s.pins with lsel := true }
      link := { s.link with exchange := some ⟨chooseItem s.link, composeFrame s.link s.alert, 0, []⟩ } } := by
  simp [assertLsel, hr, hl, beginExchange, State.withLink, State.withPins]

/-- Settles O37. -/
theorem exchangeSendsTheOldestItem : Obligations.ExchangeSendsTheOldestItem := by
  refine ⟨alert_iff, fun s hr hl => ?_⟩
  rw [show exec .lselAssert s = .next (assertLsel s) from rfl, assertLsel_released hr hl]
  refine ⟨fun r href => ?_, fun r rest href hheld => ?_, fun href hheld => ?_⟩
  · simp [chooseItem, composeFrame, outboundFrame, href]
  · simp [chooseItem, composeFrame, outboundFrame, href, hheld]
  · simp [chooseItem, composeFrame, outboundFrame, href, hheld, statusCode]

/-! ## The bytes of a frame (R186) -/

/-- The bytes of the frame that brings a command. -/
def frameBytes (seq ack flags : Byte) (c : Command) : List Byte :=
  withCrc ([BitVec.ofNat 8 (7 + (commandArgs c).length), seq, ack, flags, BitVec.ofNat 8 (commandCode c)] ++ commandArgs c)

theorem frameBits_eq (seq ack flags : Byte) (c : Command) :
    frameBits seq ack flags c = bytesBits (frameBytes seq ack flags c) := rfl

@[simp] theorem frameBytes_length (seq ack flags : Byte) (c : Command) :
    (frameBytes seq ack flags c).length = 7 + (commandArgs c).length := by
  simp [frameBytes]; omega

theorem commandCode_lt (c : Command) : commandCode c < 256 := by
  cases c <;> exact of_decide_eq_true rfl

/-- A well-formed command's arguments fit a frame of 64 bytes. -/
theorem commandArgs_length_le {c : Command} (h : c.wellFormed = true) : (commandArgs c).length ≤ 57 := by
  cases c with
  | ping echo => exact (of_decide_eq_true h : echo.length ≤ 8).trans (by omega)
  | writeRaw addr words =>
    have hw : words.length ≤ 10 := of_decide_eq_true (Bool.and_eq_true_iff.mp h).2
    simp [commandArgs]; omega
  | storeWrite offset poison words =>
    have hw : words.length ≤ 13 := of_decide_eq_true (Bool.and_eq_true_iff.mp h).2
    simp [commandArgs]; omega
  | sweepCheck addr count expected => cases expected <;> simp [commandArgs]
  | _ => simp [commandArgs]

section
variable {q ack flags : Byte} {c : Command} (hw : c.wellFormed = true) (more : List Byte)

include hw in
/-- The length byte counts the frame, whatever bytes follow. -/
theorem lengthField_frame : lengthField (frameBytes q ack flags c ++ more) = 7 + (commandArgs c).length := by
  have hlen := commandArgs_length_le hw
  show (BitVec.ofNat 8 (7 + (commandArgs c).length)).toNat = _
  rw [BitVec.toNat_ofNat]
  omega

include hw in
theorem frameBody_frame : frameBody (frameBytes q ack flags c ++ more) =
    [BitVec.ofNat 8 (7 + (commandArgs c).length), q, ack, flags, BitVec.ofNat 8 (commandCode c)] ++ commandArgs c := by
  rw [frameBody, lengthField_frame hw, frameBytes, withCrc, List.append_assoc]
  exact List.take_left' (by simp; omega)

include hw in
theorem crcField_frame : crcField (frameBytes q ack flags c ++ more) =
    (crc16 (frameBody (frameBytes q ack flags c ++ more))).toNat := by
  rw [frameBody_frame hw, crcField, lengthField_frame hw, frameBytes, withCrc, List.append_assoc,
    List.drop_left' (by simp; omega), List.take_left' (natBytes_length 2 _), bytesNat_natBytes_mod]
  exact Nat.mod_eq_of_lt (crc16 _).isLt

include hw in
/-- An intact frame fails no check but that of the queue (R154). -/
theorem failedCheck_frame : failedCheck (frameBytes q ack flags c ++ more) false = none := by
  have hlen := commandArgs_length_le hw
  rw [failedCheck, if_neg, if_neg, if_neg, if_neg]
  · simp
  · exact not_not.mpr (crcField_frame hw more)
  · rw [lengthField_frame hw]; simp
  · rw [lengthField_frame hw, Config.frameBytes]; omega

include hw in
/-- The frame brings its command (R186). -/
theorem frameCommand_frame : frameCommand (frameBytes q ack flags c ++ more) = queuedOf q c := by
  have hcode : (BitVec.ofNat 8 (commandCode c)).toNat = commandCode c := by
    rw [BitVec.toNat_ofNat]; exact Nat.mod_eq_of_lt (commandCode_lt c)
  rw [frameCommand, frameBody_frame hw, queuedOf]
  show (⟨q, (BitVec.ofNat 8 (commandCode c)).toNat, commandArgs c⟩ : QueuedCommand) = _
  rw [hcode]

theorem frameAck_frame : frameAck (frameBytes q ack flags c ++ more) = if flags.getLsbD 0 then some ack else none := rfl

end

/-- The bytes of at most 64 that come first on LDI are taken, whatever bits follow (R150). -/
theorem bitsBytes_take {bs : List Byte} (h : bs.length ≤ 64) (extra : List Bool) :
    ∃ more, bitsBytes ((bytesBits bs ++ extra).take (8 * Config.frameBytes)) = bs ++ more := by
  rw [List.take_append, List.take_of_length_le (by rw [bytesBits_length, Config.frameBytes]; omega), bitsBytes_bytesBits]
  exact ⟨_, rfl⟩

/-! ## The end of an exchange -/

/-- The state in which the bytes taken are examined: the bits have passed. -/
def clockedState (bits : List Bool) (x : Exchange) (s : State) : State :=
  s.withLink { s.link with exchange := some (clockBits bits x) }

theorem endExchange_of_exchange {s : State} {x : Exchange} (h : s.link.exchange = some x) (bits : List Bool) :
    endExchange bits s = closeExchange (examine (bitsBytes (clockBits bits x).taken) (clockedState bits x s)) := by
  simp only [endExchange, h]; rfl

theorem closeExchange_of_exchange {s : State} {x : Exchange} (h : s.link.exchange = some x) :
    closeExchange s = s.withLink { s.link with
      lastSent := if delivered x then x.chosen else s.link.lastSent
      exchange := none } := by
  simp only [closeExchange, h]

/-- EXCHANGE_END considers the head of the queue in the state that the exchange leaves, as COMMAND_START does there
(R158). -/
theorem exec_exchangeEnd_as_commandStart {s u : State} {bits : List Bool}
    (h : endExchange bits (s.withPins { s.pins with lsel := false }) = u) :
    ∃ t, exec (.exchangeEnd bits) s = .next t ∧ exec .commandStart u = .next t :=
  ⟨considerNext u, by rw [← h]; rfl, rfl⟩

/-- An intact frame at a queue with space: its acknowledgement is acted on, and its command queued (R156, R157). -/
theorem endExchange_frame {s : State} {x : Exchange} {q ack flags : Byte} {c : Command} (hw : c.wellFormed = true)
    (hx : s.link.exchange = some x) (ht : x.taken = []) (hspace : s.link.commands.length < 4) (extra : List Bool) :
    endExchange (frameBits q ack flags c ++ extra) s = closeExchange (enqueue (queuedOf q c)
      (acknowledge (if flags.getLsbD 0 then some ack else none)
        (clockedState (frameBits q ack flags c ++ extra) x s))) := by
  have hlen := commandArgs_length_le hw
  obtain ⟨more, hmore⟩ := bitsBytes_take (bs := frameBytes q ack flags c) (by rw [frameBytes_length]; omega) extra
  have htaken : bitsBytes (clockBits (frameBits q ack flags c ++ extra) x).taken = frameBytes q ack flags c ++ more := by
    rw [← hmore, clockBits, ht]; rfl
  have hfull : queueFull (clockedState (frameBits q ack flags c ++ extra) x s) = false := by
    exact decide_eq_false (Nat.not_le.mpr hspace)
  have hsome : (frameBytes q ack flags c ++ more).isEmpty = false := rfl
  rw [endExchange_of_exchange hx, htaken, examine, hsome, hfull, failedCheck_frame hw, frameCommand_frame hw,
    frameAck_frame]
  rfl

/-- The outbound frame has been shifted out whole by the clocks of an inbound one and of further bits (R153). -/
theorem delivered_clockBits {x : Exchange} (hs : x.shifted = 0) (q ack flags : Byte) (c : Command) (extra : List Bool) :
    delivered (clockBits (frameBits q ack flags c ++ extra) x) = true ↔
      8 * x.frame.length ≤ 8 * (7 + (commandArgs c).length) + extra.length := by
  simp [delivered, clockBits, hs, frameBits_eq]

/-! ## Acknowledgement -/

/-- A frame's acknowledgement is without effect: the flag is clear, no item is the one last sent, or that item has another
number (R156). -/
abbrev AcknowledgesNothing (ack flags : Byte) (l : LinkInterface) : Prop :=
  flags.getLsbD 0 = false ∨ l.lastSent = .nothing ∨
    (∃ f, l.lastSent = .refusal ∧ l.refusal = some f ∧ f.seq ≠ ack) ∨
    (∃ r rest, l.lastSent = .response ∧ l.responses = .held r :: rest ∧ r.seq ≠ ack)

theorem acknowledge_of_nothing {s : State} {ack flags : Byte} (h : AcknowledgesNothing ack flags s.link) :
    acknowledge (if flags.getLsbD 0 then some ack else none) s = s := by
  cases hf : flags.getLsbD 0 with
  | false => exact if_neg (by simp)
  | true =>
    have hecho : lastEcho s.link ≠ some ack := by
      rcases h with hflag | hnone | ⟨f, hlast, href, hne⟩ | ⟨r, rest, hlast, hheld, hne⟩
      · exact nomatch hf.symm.trans hflag
      · simp [lastEcho, hnone]
      · simpa [lastEcho, hlast, href] using hne
      · simpa [lastEcho, hlast, hheld, heldResponses] using hne
    exact if_neg fun hack => hecho hack.2.symm

/-- The item last sent leaves where its number is acknowledged (R156). -/
theorem acknowledge_last {s : State} {ack flags : Byte} (hf : flags.getLsbD 0 = true) (h : lastEcho s.link = some ack) :
    acknowledge (if flags.getLsbD 0 then some ack else none) s = s.withLink (removeLast s.link) := by
  rw [if_pos hf]
  exact if_pos ⟨rfl, h.symm⟩

/-! ## Frames that are intact -/

/-- The item last sent after an exchange whose own item may have left (R153). -/
theorem sentAfter_dropped (k left : Sent) (d : Prop) [Decidable d] :
    (if d then (if k = left then .nothing else k) else .nothing) = if k ≠ left ∧ d then k else Sent.nothing := by
  by_cases hk : k = left
  · simp [hk]
  · simp [hk]

/-- A frame that acknowledges nothing has its command queued, and the exchange is over. -/
theorem endExchange_queues {s : State} {x : Exchange} {q ack flags : Byte} {c : Command} (hw : c.wellFormed = true)
    (hx : s.link.exchange = some x) (ht : x.taken = []) (hs : x.shifted = 0) (hspace : s.link.commands.length < 4)
    (hack : AcknowledgesNothing ack flags s.link) (extra : List Bool) :
    endExchange (frameBits q ack flags c ++ extra) s = s.withLink { s.link with
      commands := s.link.commands ++ [queuedOf q c]
      lastSent :=
        if 8 * x.frame.length ≤ 8 * (7 + (commandArgs c).length) + extra.length then x.chosen else s.link.lastSent
      exchange := none } := by
  rw [endExchange_frame hw hx ht hspace, acknowledge_of_nothing (s := clockedState _ x s) hack]
  simp only [← delivered_clockBits hs q ack flags c extra]
  rfl

/-- A frame that acknowledges the response last sent removes it from the response queue. -/
theorem endExchange_acknowledges_response {s : State} {x : Exchange} {q flags : Byte} {r : Response} {rest : List Entry}
    {c : Command} (hw : c.wellFormed = true) (hx : s.link.exchange = some x) (ht : x.taken = []) (hs : x.shifted = 0)
    (hspace : s.link.commands.length < 4) (hf : flags.getLsbD 0 = true) (hlast : s.link.lastSent = .response)
    (hheld : s.link.responses = .held r :: rest) :
    endExchange (frameBits q r.seq flags c) s = s.withLink { s.link with
      commands := s.link.commands ++ [queuedOf q c]
      responses := rest
      lastSent :=
        if x.chosen ≠ .response ∧ 8 * x.frame.length ≤ 8 * (7 + (commandArgs c).length) then x.chosen else .nothing
      exchange := none } := by
  have hframe := endExchange_frame (q := q) (ack := r.seq) (flags := flags) hw hx ht hspace []
  have hdelivered : delivered (clockBits (frameBits q r.seq flags c) x) = true ↔
      8 * x.frame.length ≤ 8 * (7 + (commandArgs c).length) := by
    simpa using delivered_clockBits hs q r.seq flags c []
  rw [List.append_nil] at hframe
  have hecho : lastEcho (clockedState (frameBits q r.seq flags c) x s).link = some r.seq := by
    simp [lastEcho, clockedState, hlast, hheld, heldResponses]
  have hremoved : removeLast (clockedState (frameBits q r.seq flags c) x s).link =
      { s.link with
        responses := rest, lastSent := .nothing
        exchange := some { clockBits (frameBits q r.seq flags c) x with
          chosen := if x.chosen = .response then .nothing else x.chosen } } := by
    simp [removeLast, clockedState, hlast, hheld, removeHeld, dropReference, clockBits]
  rw [hframe, acknowledge_last hf hecho, hremoved, closeExchange_of_exchange rfl]
  refine congrArg s.withLink ?_
  simp only [← sentAfter_dropped, ← hdelivered]
  rfl

/-- A frame that acknowledges the refusal last sent, which the same exchange delivers again, removes it. -/
theorem endExchange_acknowledges_refusal {s : State} {x : Exchange} {q flags : Byte} {f : RefusalItem} {c : Command}
    (hw : c.wellFormed = true) (hx : s.link.exchange = some x) (ht : x.taken = []) (hchosen : x.chosen = .refusal)
    (hspace : s.link.commands.length < 4) (hf : flags.getLsbD 0 = true) (hlast : s.link.lastSent = .refusal)
    (href : s.link.refusal = some f) :
    endExchange (frameBits q f.seq flags c) s = s.withLink { s.link with
      commands := s.link.commands ++ [queuedOf q c]
      refusal := none
      lastSent := .nothing
      exchange := none } := by
  have hframe := endExchange_frame (q := q) (ack := f.seq) (flags := flags) hw hx ht hspace []
  rw [List.append_nil] at hframe
  have hecho : lastEcho (clockedState (frameBits q f.seq flags c) x s).link = some f.seq := by
    simp [lastEcho, clockedState, hlast, href]
  have hremoved : removeLast (clockedState (frameBits q f.seq flags c) x s).link =
      { s.link with
        refusal := none, lastSent := .nothing
        exchange := some { clockBits (frameBits q f.seq flags c) x with chosen := .nothing } } := by
    simp [removeLast, clockedState, hlast, dropReference, clockBits, hchosen]
  rw [hframe, acknowledge_last hf hecho, hremoved, closeExchange_of_exchange rfl]
  refine congrArg s.withLink ?_
  simp [enqueue]

/-- Settles O35. Each clause is what the exchange leaves, with the head considered there. -/
theorem wireFrameQueuesItsCommand : Obligations.WireFrameQueuesItsCommand := by
  refine ⟨fun s x q ack flags c extra hw hx ht hs hspace hack => ?_,
    fun s x q flags r rest c hw hx ht hs hspace hf hlast hheld => ?_,
    fun s x q flags f c hw hx ht hs hchosen hspace hf hlast href => ?_,
    fun s x i q ack c hc _ hw hr hx ht hs => ?_⟩
  · exact exec_exchangeEnd_as_commandStart
      (endExchange_queues (s := s.withPins { s.pins with lsel := false }) hw hx ht hs hspace hack extra)
  · exact exec_exchangeEnd_as_commandStart (endExchange_acknowledges_response
      (s := s.withPins { s.pins with lsel := false }) hw hx ht hs hspace hf hlast hheld)
  · exact exec_exchangeEnd_as_commandStart (endExchange_acknowledges_refusal
      (s := s.withPins { s.pins with lsel := false }) hw hx ht hchosen hspace hf hlast href)
  · obtain ⟨-, hempty, -⟩ := id hr
    have hqueued := endExchange_queues (s := s.withPins { s.pins with lsel := false }) (q := q) (ack := ack) (flags := 0)
      hw hx ht hs (by rw [State.withPins_link, hempty]; exact Nat.zero_lt_succ 3) (.inl rfl) []
    rw [List.append_nil] at hqueued
    obtain ⟨t, hend, hstart⟩ := exec_exchangeEnd_as_commandStart hqueued
    refine ⟨t, hend, (exec_row_eq_commandStart hc hw (by exact hr)).trans ?_⟩
    rw [← hstart, State.withPins_link, hempty]
    rfl

/-! ## Frames that fail a check -/

/-- The refusal of a frame takes the holding; the queues, the responses and the executing command stay (R155). -/
theorem endExchange_refused {s : State} {x : Exchange} {bits : List Bool} {st : Status}
    (hx : s.link.exchange = some x) (hne : bitsBytes (clockBits bits x).taken ≠ [])
    (hcheck : failedCheck (bitsBytes (clockBits bits x).taken) (queueFull s) = some st) :
    endExchange bits s = closeExchange
      (refuse ((bitsBytes (clockBits bits x).taken).getD 1 0) st (clockedState bits x s)) := by
  have hsome : (bitsBytes (clockBits bits x).taken).isEmpty = false := by simpa using hne
  have hfull : queueFull (clockedState bits x s) = queueFull s := rfl
  rw [endExchange_of_exchange hx, examine, hsome, hfull, hcheck]
  rfl

/-- The first of the four checks that fails gives the status (R154). -/
theorem failedCheck_of_first {bs : List Byte} {full : Bool} {st : Status}
    (h : (lengthField bs < 7 ∨ 64 < lengthField bs) ∧ st = .oversize ∨
      (7 ≤ lengthField bs ∧ lengthField bs ≤ 64) ∧
        (bs.length < lengthField bs ∧ st = .short ∨
          lengthField bs ≤ bs.length ∧
            (crcField bs ≠ (crc16 (frameBody bs)).toNat ∧ st = .checkFail ∨
              crcField bs = (crc16 (frameBody bs)).toNat ∧ full = true ∧ st = .full))) :
    failedCheck bs full = some st := by
  rw [failedCheck, Config.frameBytes]
  rcases h with ⟨hlen, rfl⟩ | ⟨⟨hmin, hmax⟩, ⟨hshort, rfl⟩ | ⟨hlong, ⟨hcrc, rfl⟩ | ⟨hcrc, hfull, rfl⟩⟩⟩
  · rw [if_pos hlen]
  · rw [if_neg (by omega), if_pos hshort]
  · rw [if_neg (by omega), if_neg (by omega), if_pos hcrc]
  · rw [if_neg (by omega), if_neg (by omega), if_neg (not_not.mpr hcrc), if_pos hfull]

/-- Nothing starts where the queues and the executing command are those of a state in which nothing startable waits. -/
theorem mayStart_of_queues {s t : State} (h : StartSound s) (hcommands : t.link.commands = s.link.commands)
    (hexecuting : t.link.executing = s.link.executing) (hresponses : t.link.responses = s.link.responses) :
    mayStart t = false := by
  have hlink : mayStart (t.withLink s.link) = false := mayStart_of_link h rfl
  rw [← hlink, mayStart, mayStart, hcommands, hexecuting, hresponses]
  rfl

/-- Settles O36. The refusal leaves the queues, so that no command starts behind it. -/
theorem faultyFrameRefused : Obligations.FaultyFrameRefused := by
  intro s x bits bs st hx hstart ht hbs hne hcheck
  have htaken : bitsBytes (clockBits bits x).taken = bs := by rw [clockBits, ht, hbs]; rfl
  have hfirst : failedCheck bs (queueFull s) = some st := by
    refine failedCheck_of_first ?_
    simpa [queueFull, Config.linkDepth] using hcheck
  have hend := endExchange_refused (s := s.withPins { s.pins with lsel := false }) hx (htaken ▸ hne) (htaken ▸ hfirst)
  rw [htaken, closeExchange_of_exchange rfl] at hend
  refine ⟨_, (congrArg (fun u => Host.Outcome.next (considerNext u)) hend).trans
    (congrArg Host.Outcome.next (considerNext_of_not (mayStart_of_queues hstart rfl rfl rfl))), ?_⟩
  exact ⟨rfl, rfl, rfl, rfl, rfl, rfl, rfl, rfl, rfl, rfl, rfl⟩

end Sys2Proof.Proofs

namespace Sys2Proof.Proofs

open Sys2Proof.Machine

set_option Elab.async false

/-! ## Reset -/

/-- Nothing is stored after reset, and the table is in its reset configuration (R21, R48, R94). -/
theorem storedSound_reset : StoredSound State.reset := by
  obtain ⟨htable, hconfigs⟩ := (tableInRange_iff State.reset).mp resetTable_inRange
  exact ⟨wf_reset, htable, limitsSound_tableRules.reset rfl, hconfigs, captureSound_of_reset rfl⟩

/-- The state after reset is that of a power-on reset with RESET released again (R168). -/
theorem steady_reset : Steady State.reset := (quiet_powerOn State.reset).steady_releaseReset

/-- Settles O9: the units agree as they do behind any power-on reset, and the link interface is empty. -/
theorem resetStateIsSound : Obligations.ResetStateIsSound :=
  ⟨sound_of_steady storedSound_reset steady_reset, nofun, nofun⟩

/-- Settles O10: `powerOnState` takes the units of `State.reset` but for those that the statement names. -/
theorem powerOnResetTakesEveryUnit : Obligations.PowerOnResetTakesEveryUnit := fun _ => rfl

/-! ## FBYP -/

/-- An active FBYP that acts forces an ACTIVE part to BYPASS (R30, R172). -/
theorem sampleFbyp_of_active {s : State} (hf : s.pins.fbyp = true) (hp : s.control.part = .active) :
    sampleFbyp s = forceBypass s := by
  simp [sampleFbyp, hf, hp]

/-- FBYP may change the part state, with the forced indication and its cause; the start-up clear goes on (R166). -/
theorem sampleFbyp_clear (s : State) : (sampleFbyp s).control.clear = s.control.clear := by
  rw [sampleFbyp_control]; split <;> rfl

theorem assertFbyp_of_idle {s : State} (h : s.forward.path = .idle) :
    assertFbyp s = sampleFbyp (s.withPins { s.pins with fbyp := true }) := if_pos h

/-- While a request is in flight, or the part is not ACTIVE, FBYP becoming active changes its line alone (R30, R172). -/
theorem assertFbyp_without_effect {s : State} (h : s.forward.path ≠ .idle ∨ s.control.part ≠ .active) :
    assertFbyp s = s.withPins { s.pins with fbyp := true } := by
  by_cases hidle : s.forward.path = .idle
  · rw [assertFbyp_of_idle hidle, sampleFbyp_of_not_active (by exact h.resolve_left (absurd hidle))]
  · exact if_neg hidle

/-! ## A hold that ends without space -/

/-- The machine at the end of a hold by expiry or by soft reset, before FBYP acts: the held offer is dropped as under DROP,
and the held response is given (R98, R101, R102). -/
def holdDropped (h : HeldRequest) (s : State) : State :=
  { s with
    control := { s.control with causes := s.control.causes ||| causeBit .captureLoss }
    capture := { s.capture with
      held := none
      dropped := min (s.capture.dropped + 1) 65535
      pendingDrops := min (s.capture.pendingDrops + 1) 255 }
    forward := { s.forward with
      path := .idle
      lastAccess := some (lastAccessOf h.request h.response s.control.timestamp)
      given := some h.response } }

theorem endHoldByDrop_of_held {s : State} {h : HeldRequest} (hpath : s.forward.path = .held h) :
    endHoldByDrop s = sampleFbyp (holdDropped h s) := by
  rw [endHoldByDrop, hpath]; rfl

/-! ## Lines and time -/

/-- Settles O12, row by row. -/
theorem linesAndTimeRows : Obligations.LinesAndTimeRows := by
  refine ⟨fun s => rfl, fun s hidle hactive => ?_, fun s h => ?_, fun s => rfl, fun s hreset => ?_, fun s hreset => ?_,
    fun s => rfl, fun s h hpath => congrArg Host.Outcome.next (endHoldByDrop_of_held hpath)⟩
  · refine congrArg Host.Outcome.next ((assertFbyp_of_idle hidle).trans ?_)
    rw [sampleFbyp_of_active rfl (by exact hactive)]
    rfl
  · exact congrArg Host.Outcome.next (assertFbyp_without_effect h)
  · exact congrArg Host.Outcome.next (if_neg (by simp [hreset]))
  · exact congrArg Host.Outcome.next (if_pos hreset)

end Sys2Proof.Proofs

namespace Sys2Proof.Proofs

open Sys2Proof.Machine

set_option Elab.async false

/-! ## ENGAGE and DISENGAGE -/

/-- At a ready link and an IDLE path a boundary command that passes its first checks is carried out at its start (R29). -/
theorem runCommand_carries {c : Command} {b : BoundaryCommand} (hb : boundaryOf c = some b) {s : State} (hr : Ready s)
    (hidle : s.forward.path = .idle) (q : Byte) :
    runCommand c (startedState (queuedOf q c) s) = carry b (startedState (queuedOf q c) s) :=
  (runCommand_of_boundaryOf hb (started_past hr _)).trans (atBoundary_of_idle (started_idle hidle _) b)

/-- A command that its block answers at once with the control unit replaced. -/
theorem exec_of_control {i : Instr} {q : Byte} (c : Command) {s : State} (hr : Ready s) {st : Status} {p : List Byte}
    {u : Control}
    (hc : runCommand c (startedState (queuedOf q c) s) = complete st p ((startedState (queuedOf q c) s).withControl u))
    (h : i.command = some (q, c) := by rfl) :
    exec i s = .next (answered q st p { s with control := u }) := by
  rw [exec_of_ready c hr h, hc, complete_withControl, complete_startedState hr.1]; rfl

theorem carryEngage_pinned {s : State} (h : s.pins.fbyp = true) : carryEngage s = complete .pinned [] s := if_pos h

section
variable {s : State} (hf : s.pins.fbyp = false)
include hf

theorem carryEngage_active (hp : s.control.part = .active) : carryEngage s = complete .ok [] s := by
  simp [carryEngage, hf, hp]

theorem carryEngage_bypass (hp : s.control.part = .bypass) :
    carryEngage s = complete .ok [] (s.withControl { s.control with part := .active, forced := false }) := by
  simp [carryEngage, hf, hp]

end

theorem liveShadow_of_lowest {s : State} {i : Nat} (hi : i < 24) (hmode : (s.slot i).active.mode = .shadow)
    (hlive : (s.slot i).status.state = .live)
    (h : ∀ j < i, (s.slot j).active.mode ≠ .shadow ∨ (s.slot j).status.state ≠ .live) : liveShadow s.table = some i :=
  List.find?_range_eq_some.mpr ⟨by simpa [State.slot] using ⟨hmode, hlive⟩, List.mem_range.mpr hi,
    by simpa [State.slot, ← imp_iff_not_or] using h⟩

theorem liveShadow_of_none {s : State}
    (h : ∀ i < 24, (s.slot i).active.mode ≠ .shadow ∨ (s.slot i).status.state ≠ .live) : liveShadow s.table = none :=
  List.find?_range_eq_none.mpr (by simpa [State.slot, ← imp_iff_not_or, Config.slotCount] using h)

theorem carryDisengage_bypass {s : State} (h : s.control.part = .bypass) (force : Bool) :
    carryDisengage force s = complete .ok [] s := if_neg (by simp [h])

section
variable {s : State} (hp : s.control.part = .active)
include hp

theorem carryDisengage_refused {i : Nat} (h : liveShadow s.table = some i) :
    carryDisengage false s = complete .shadowLive (natBytes 1 i) s := by
  simp only [carryDisengage, if_pos hp, leaveActive, h]

theorem carryDisengage_taken {force : Bool} (h : force = true ∨ liveShadow s.table = none) :
    carryDisengage force s = complete .ok [] (s.withControl { s.control with part := .bypass }) := by
  rw [carryDisengage, if_pos hp]
  rcases h with rfl | h
  · rfl
  · cases force <;> simp only [leaveActive, h]

end

/-- Settles O42: both commands are carried out at their start, by the line, the part state and the lowest LIVE SHADOW
slot. -/
theorem engageAndDisengage : Obligations.EngageAndDisengage := by
  intro s q hr hidle
  have engaged := runCommand_carries (c := .engage) rfl hr hidle q
  have disengaged {force : Nat} (h : force ≤ 1) :=
    runCommand_carries (c := .disengage force) (by rw [boundaryOf, onOff_flag h]; rfl) hr hidle q
  refine ⟨fun hf => ?_, fun hf hp => ?_, fun hf hp => ?_, fun force hforce hp => ?_,
    fun i hp hi hmode hlive hlow => ?_, fun hp hnone => ?_, fun hp => ?_⟩
  · exact exec_of_answer .engage hr (engaged.trans (carryEngage_pinned hf))
  · exact exec_of_answer .engage hr (engaged.trans (carryEngage_active hf hp))
  · exact exec_of_control .engage hr (engaged.trans (carryEngage_bypass hf hp))
  · exact exec_of_answer (.disengage force) hr ((disengaged hforce).trans (carryDisengage_bypass (s := startedState _ s) hp _))
  · exact exec_of_answer (.disengage 0) hr
      ((disengaged zero_le_one).trans (carryDisengage_refused (s := startedState _ s) hp
        (liveShadow_of_lowest hi hmode hlive hlow)))
  · exact exec_of_control (.disengage 0) hr
      ((disengaged zero_le_one).trans
        (carryDisengage_taken (s := startedState _ s) hp (.inr (liveShadow_of_none hnone))))
  · exact exec_of_control (.disengage 1) hr
      ((disengaged le_rfl).trans (carryDisengage_taken (s := startedState _ s) hp (.inl rfl)))

end Sys2Proof.Proofs

namespace Sys2Proof.Proofs

open Sys2Proof.Machine

set_option Elab.async false

/-! ## Cause sets -/

theorem causeNumber_lt (c : Cause) : causeNumber c < 14 := by cases c <;> decide

theorem hasCause_or_causeBit (set : CauseSet) (c d : Cause) :
    hasCause (set ||| causeBit c) d = (hasCause set d || decide (c = d)) := by
  rw [← hasCause_causeBit, hasCause, BitVec.getLsbD_or]; rfl

theorem hasCause_removed (set named : CauseSet) (c : Cause) :
    hasCause (set &&& ~~~named) c = (hasCause set c && !named.getLsbD (causeNumber c)) := by
  rw [hasCause, BitVec.getLsbD_and, BitVec.getLsbD_not, decide_eq_true (causeNumber_lt c), Bool.true_and]; rfl

/-- The pending set after the CAPTURE_LEVEL condition is evaluated (R110). -/
def levelChecked (threshold records : Nat) (causes : CauseSet) : CauseSet :=
  if threshold ≤ records then causes ||| causeBit .captureLevel else causes

theorem checkLevel_eq (s : State) : checkLevel s = s.withControl { s.control with
    causes := levelChecked s.control.config.threshold s.capture.queue.length s.control.causes } := by
  rw [checkLevel, levelChecked]
  by_cases h : s.control.config.threshold ≤ s.capture.queue.length
  · have hcond : levelCondition s = true := decide_eq_true h
    rw [if_pos hcond, if_pos h]; rfl
  · have hcond : ¬ levelCondition s = true := fun e => h (of_decide_eq_true e)
    rw [if_neg hcond, if_neg h]; rfl

/-! ## SET_CONFIG and ALERT_ACK -/

theorem checkConfigFields_of_bounds {f : ConfigFields} {p : Policy} (hpolicy : policyOf f.policy = some p)
    (hprescale : f.prescale ≤ 255) (htimeout : 1 ≤ f.timeout ∧ f.timeout ≤ 4095) (hpatience : f.patience ≤ 255)
    (hlimit : 1 ≤ f.holdLimit ∧ f.holdLimit ≤ 65535) (hthreshold : 1 ≤ f.threshold ∧ f.threshold ≤ 64)
    (henable : f.enable ≤ 16383) : checkConfigFields f = some
      { prescale := f.prescale, timeout := f.timeout, patience := f.patience, policy := p, holdLimit := f.holdLimit,
        threshold := f.threshold, enable := BitVec.ofNat 14 f.enable } := by
  have hbits : f.enable < 2 ^ 14 := Nat.lt_succ_of_le henable
  simp only [checkConfigFields, hpolicy, hprescale, htimeout, hpatience, hlimit, hthreshold, hbits, decide_true,
    Bool.and_self, if_true]

/-- Past STARTING a configuration set in range is written whole (R175). -/
theorem runSetConfig_of_checked {s : State} (hp : s.control.part ≠ .starting) {f : ConfigFields} {c : ConfigSet}
    (h : checkConfigFields f = some c) : runSetConfig f s = complete .ok [] (writeConfig c s) := by
  rw [runSetConfig, unlessStarting_past hp, h]

/-- The condition is evaluated against the new threshold (R110, R175). -/
theorem writeConfig_eq (c : ConfigSet) (s : State) : writeConfig c s = s.withControl { s.control with
    config := c
    prescaleCount := if c.prescale = s.control.config.prescale then s.control.prescaleCount else 0
    causes := levelChecked c.threshold s.capture.queue.length s.control.causes } := checkLevel_eq _

/-- The pending set after an acknowledgement of the named causes (R181). -/
def causesLeft (named : CauseSet) (s : State) : CauseSet :=
  levelChecked s.control.config.threshold s.capture.queue.length (s.control.causes &&& ~~~named)

theorem clearCauses_eq (named : CauseSet) (s : State) :
    clearCauses named s = s.withControl { s.control with causes := causesLeft named s } := checkLevel_eq _

theorem runAlertAck_of_fits {s : State} (hp : s.control.part ≠ .starting) {causes : Nat} (h : causes ≤ 16383) :
    runAlertAck causes s = complete .ok (causeSetBytes (causesLeft (BitVec.ofNat 14 causes) s))
      (s.withControl { s.control with causes := causesLeft (BitVec.ofNat 14 causes) s }) := by
  rw [runAlertAck, unlessStarting_past hp, if_pos (by omega), ackCauses, clearCauses_eq]
  rfl

/-- Settles O47: each command is one completion with the control unit replaced; what ALERT_ACK leaves is read off
`causesLeft`. -/
theorem configWrittenAndAlertsAcknowledged : Obligations.ConfigWrittenAndAlertsAcknowledged := by
  refine ⟨fun s q f p hr hpolicy hprescale hsome htimeout hpatience hticks hlimit hlevel hthreshold henable => ?_,
    fun s q causes hr hfits => ⟨causesLeft (BitVec.ofNat 14 causes) s, ?_, fun c hc => ?_, fun hlow => ?_,
      fun hfull => ?_⟩⟩
  · have hp : policyOf f.policy = some p := by rcases hpolicy with ⟨h, rfl⟩ | ⟨h, rfl⟩ <;> rw [h] <;> rfl
    have hchecked := checkConfigFields_of_bounds hp hprescale ⟨hsome, htimeout⟩ hpatience ⟨hticks, hlimit⟩
      ⟨hlevel, hthreshold⟩ henable
    exact exec_of_control (.setConfig f) hr ((runSetConfig_of_checked (started_past hr _) hchecked).trans
      (congrArg (complete .ok []) (writeConfig_eq _ _)))
  · exact exec_of_control (.alertAck causes) hr (runAlertAck_of_fits (started_past hr _) hfits)
  · rw [causesLeft, levelChecked, ← hasCause_removed]
    split
    · rw [hasCause_or_causeBit, decide_eq_false (Ne.symm hc), Bool.or_false]
    · rfl
  · rw [causesLeft, levelChecked, if_neg (Nat.not_le.mpr hlow), hasCause_removed]
    rfl
  · rw [causesLeft, levelChecked, if_pos hfull, hasCause_or_causeBit, decide_eq_true rfl, Bool.or_true]

end Sys2Proof.Proofs

namespace Sys2Proof.Proofs

open Sys2Proof.Machine

set_option Elab.async false

/-! ## SOFT_RESET

Taken at its start, SOFT_RESET ends a hold and is then, at the boundary that it is at or has so reached, carried out. -/

/-- A machine on which SOFT_RESET has been taken from a ready link, with the executing command waiting for `e` (R173). -/
def softResetTaken (q : Byte) (e : Executing) (l : LinkInterface) (s : State) : State :=
  s.withLink (waitingLink q .softReset e l)

theorem exec_softReset {s : State} (hr : Ready s) (q : Byte) : exec (.softReset q) s =
    .next (carryAtIdle (softResetTaken q (.boundary .softReset) s.link (endHoldByDrop s))) := by
  rw [exec_of_ready .softReset hr, runCommand, runSoftReset, unlessStarting_past (started_past hr _), takeSoftReset,
    softResetTaken, ← endHoldByDrop_apart.withLink]
  rfl

theorem endHoldByDrop_of_isHeld {s : State} (h : isHeld s.forward.path = false) : endHoldByDrop s = s :=
  endHoldByDrop_of_not_held fun x hx => by simp [hx, isHeld] at h

/-- With a request in flight SOFT_RESET waits for its boundary (R173). -/
theorem exec_softReset_in_flight {s : State} (hr : Ready s) (hbusy : s.forward.path ≠ .idle)
    (hheld : isHeld s.forward.path = false) (q : Byte) :
    exec (.softReset q) s = .next (softResetTaken q (.boundary .softReset) s.link s) := by
  rw [exec_softReset hr, endHoldByDrop_of_isHeld hheld, carryAtIdle, if_neg (by exact hbusy)]

/-! ### At the boundary -/

/-- Carried out with no begun block, SOFT_RESET makes its change; the block that waits leaves the waiting set, and nothing
else of its withdrawal outlasts the change (R148, R174). -/
theorem carrySoftReset_of_not_begun {s : State} (h : blockBegun s.sweep = false) :
    ∃ w, carrySoftReset s = softResetChange (s.withArbiter { s.arbiter with waitSweep := w }) := by
  cases hb : s.sweep.block with
  | none => exact ⟨s.arbiter.waitSweep, by simp only [carrySoftReset, hb]; rfl⟩
  | some b =>
    have hwaiting : b.phase = .waiting := by simpa [blockBegun, hb] using h
    exact ⟨false, by simp only [carrySoftReset, hb, if_pos hwaiting]; rfl⟩

/-- Carried out with a begun block, SOFT_RESET waits for it (R148, R173). -/
theorem carrySoftReset_of_begun {s : State} (h : blockBegun s.sweep = true) :
    carrySoftReset s = await .softResetBlock s := by
  cases hb : s.sweep.block with
  | none => simp [blockBegun, hb] at h
  | some b =>
    have hbegun : b.phase ≠ .waiting := by simpa [blockBegun, hb] using h
    simp only [carrySoftReset, hb, if_neg hbegun]

/-- The completion of the command of a ready link leaves one more response (R160). -/
theorem completedLink_waitingLink {s : State} (hr : LinkReady s) (q : Byte) (c : Command) (e : Executing) (st : Status)
    (p : List Byte) :
    completedLink (waitingLink q c e s.link) [] s.link.responses ⟨q, st, p⟩ = (answered q st p s).link := by
  obtain ⟨-, hcommands, hexecuting, -, -⟩ := hr
  rw [completedLink, ← hcommands, ← hexecuting]
  rfl

section
variable {s : State} (hr : Ready s) (hidle : (endHoldByDrop s).forward.path = .idle) (q : Byte)
include hr hidle

theorem exec_softReset_at_boundary : exec (.softReset q) s =
    .next (carrySoftReset (softResetTaken q (.boundary .softReset) s.link (endHoldByDrop s))) := by
  rw [exec_softReset hr, carryAtIdle, if_pos (by exact hidle)]

theorem exec_softReset_carried_out (hb : blockBegun s.sweep = false) : ∃ w, exec (.softReset q) s =
    .next (softResetState (answered q .ok [] s).link
      ((endHoldByDrop s).withArbiter { s.arbiter with waitSweep := w })) := by
  have ⟨⟨_, _, _, _, hentries⟩, _⟩ := hr
  obtain ⟨w, hw⟩ := carrySoftReset_of_not_begun
    (s := softResetTaken q (.boundary .softReset) s.link (endHoldByDrop s)) (by simpa [softResetTaken] using hb)
  refine ⟨w, ?_⟩
  rw [exec_softReset_at_boundary hr hidle, hw, softResetChange_of_executes (e := .boundary .softReset)
    (q := queuedOf q .softReset) (rest := []) (held := s.link.responses) ⟨rfl, rfl, rfl, hentries⟩,
    ← completedLink_waitingLink hr.1 q .softReset (.boundary .softReset), ← endHoldByDrop_arbiter s]
  rfl

theorem exec_softReset_awaits_block (hb : blockBegun s.sweep = true) :
    exec (.softReset q) s = .next (softResetTaken q .softResetBlock s.link (endHoldByDrop s)) := by
  rw [exec_softReset_at_boundary hr hidle, carrySoftReset_of_begun (by simpa [softResetTaken] using hb)]
  rfl

end

/-- At an IDLE path nothing ends; a hold that ends gives its response, and FBYP may act. Either way the path is IDLE, and
the start-up clear goes on (R102, R166). -/
theorem endHoldByDrop_at_boundary {s : State} {given : Option BusResponse}
    (h : s.forward.path = .idle ∧ given = s.forward.given ∨ ∃ x, s.forward.path = .held x ∧ given = some x.response) :
    (∃ last, (endHoldByDrop s).forward = { s.forward with path := .idle, lastAccess := last, given := given }) ∧
      (endHoldByDrop s).control.clear = s.control.clear := by
  rcases h with ⟨hidle, rfl⟩ | ⟨x, hx, rfl⟩
  · rw [endHoldByDrop_of_isHeld (by rw [hidle]; rfl), ← hidle]
    exact ⟨⟨s.forward.lastAccess, rfl⟩, rfl⟩
  · rw [endHoldByDrop_of_held hx, sampleFbyp_forward, sampleFbyp_clear]
    exact ⟨⟨_, rfl⟩, rfl⟩

/-! ### A hold that would begin -/

/-- A waiting SOFT_RESET keeps the port from accepting (R173). -/
theorem mayAccept_of_softResetWaits {s : State} (h : softResetWaits s = true) : mayAccept s = false := by
  have he : s.link.executing = some (.boundary .softReset) := by simpa [softResetWaits] using h
  simp [mayAccept, boundaryWaits, he]

section
variable {s : State} (hfull : 64 ≤ s.capture.queue.length) (hhold : s.control.config.policy = .hold)
  (hwaits : softResetWaits s = true) (r : BusRequest)
include hfull hhold hwaits

/-- The record is dropped and the response given, as at the end of a hold (R95, R102, R173). -/
theorem takeOffer_meets_softReset (resp : BusResponse) (o : CaptureOffer) :
    takeOffer r resp o s = sampleFbyp (holdDropped ⟨r, resp⟩ (beginHold r resp o s)) :=
  (takeOffer_ends hfull hhold hwaits).trans (endHoldByDrop_of_held (s := beginHold r resp o s) rfl)

/-- The same at the settle of a request that the memory has answered, the path standing as its request left it. -/
theorem settle_meets_softReset {d : Decided} (hlisted : listedSlots d (countingSet (requestKind r) .okay d) ≠ [])
    (hpath : ∀ f, s.forward.path ≠ .waitGrant f) (resp : BusResponse) :
    (settle r d .okay resp (freePort false s)).forward = (holdDropped ⟨r, resp⟩ s).forward ∧
      (settle r d .okay resp (freePort false s)).capture = (holdDropped ⟨r, resp⟩ s).capture ∧
      hasCause (settle r d .okay resp (freePort false s)).control.causes .captureLoss = true := by
  have settings := sameSettings_settleUnits r d .okay (freePort false s)
  have hcapture : (settleUnits r d .okay (freePort false s)).capture = s.capture := by simp
  have hforward : (settleUnits r d .okay (freePort false s)).forward = s.forward := by
    rw [settleUnits_forward, freePort_forward hpath]
  have hcontrol := freePort_control false s
  rw [settle_of_listed hlisted, takeOffer_meets_softReset (by rw [hcapture]; exact hfull)
    (by rw [settings.config, hcontrol]; exact hhold) (by simpa [softResetWaits] using hwaits)]
  refine ⟨?_, ?_, causesGrow_sampleFbyp _ _ (hasCause_raised .captureLoss _)⟩
  · simp only [sampleFbyp_forward, holdDropped, beginHold_control, settings.timestamp, hcontrol]
    simp only [beginHold, State.withCapture_forward, State.withForward_forward, hforward]
  · simp only [sampleFbyp_capture, holdDropped, beginHold, State.withCapture_capture, hcapture]

end

/-- Settles O43: carried out at the boundary, awaiting a block or a request, ending a hold, and meeting one that would
begin. -/
theorem softResetCarriedOut : Obligations.SoftResetCarriedOut := by
  refine ⟨fun s q given hr hboundary hb => ?_, fun s q hr hidle hb => ?_, fun s q hr hbusy hheld => ?_,
    fun s q h hr hpath hb => ?_, fun s r p d data hpath hfits hwaits hfull hhold hlisted => ?_⟩
  · obtain ⟨⟨last, hforward⟩, hclear⟩ := endHoldByDrop_at_boundary hboundary
    obtain ⟨w, hexec⟩ := exec_softReset_carried_out hr (by rw [hforward]) q hb
    refine ⟨_, hexec, rfl, endHoldByDrop_store s, endHoldByDrop_pins s, endHoldByDrop_port s, endHoldByDrop_access s,
      rfl, ?_, ?_, rfl, rfl, rfl, rfl, rfl⟩
    · simp only [softResetState, State.withArbiter_control, hclear]
    · simp only [softResetState, State.withArbiter_forward, hforward]
  · have hended : endHoldByDrop s = s := endHoldByDrop_of_isHeld (by rw [hidle]; rfl)
    rw [exec_softReset_awaits_block hr (by rw [hended, hidle]) q hb, hended]
    rfl
  · exact exec_softReset_in_flight hr hbusy hheld q
  · have hended := endHoldByDrop_of_held hpath
    have hexec := exec_softReset_awaits_block hr (by rw [hended, sampleFbyp_forward]; rfl) q hb
    rw [hended] at hexec
    refine ⟨_, hexec, rfl, sampleFbyp_forward _, sampleFbyp_capture _, ?_, sampleFbyp_store _, sampleFbyp_table _,
      sampleFbyp_sweep _, sampleFbyp_port _, sampleFbyp_arbiter _⟩
    exact causesGrow_sampleFbyp _ _ (hasCause_raised .captureLoss s)
  · have hlink := hostAnswered_link ⟨r, p, some d⟩ (.okay data) s
    refine ⟨_, exec_downstreamResponse_outstanding hpath hfits, hlink,
      mayAccept_of_softResetWaits (by rw [softResetWaits, hlink]; exact hwaits), ?_⟩
    exact settle_meets_softReset hfull hhold hwaits r hlisted (not_waiting_of_outstanding hpath) (okayResponse r d data)

end Sys2Proof.Proofs

namespace Sys2Proof.Proofs

open Sys2Proof.Machine

/-! ## Decode of encode -/

/-- Settles O33. `parseCommand_encoded` goes command by command: the lengths that R188 gives are met, and each field is
read back where it was written (R184, R189). -/
theorem commandBytesReadBack : Obligations.CommandBytesReadBack := by
  intro c hwellFormed
  exact parseCommand_encoded hwellFormed

end Sys2Proof.Proofs

namespace Sys2Proof.Proofs

open Sys2Proof.Machine

/-! ## The queue of waiting commands

Only the step itself takes a command from the queue: whatever the part does, the same commands wait after it. -/

/-- The commands of `q` wait. -/
def Waiting (q : List Instr) (s : State) : Prop := s.pending = q

theorem waiting_of_pending {q : List Instr} {f : State → State} (hf : ∀ s, (f s).pending = s.pending) :
    Keeps (Waiting q) f := fun s h => (hf s).trans h

theorem carry_pending (b : BoundaryCommand) (s : State) : (carry b s).pending = s.pending := by
  cases b <;> simp [carry]

section
variable {q : List Instr} {s : State} (h : Waiting q s)
include h

theorem execStoreUpset_waiting (offset : Nat) (data : Word) : NextIn (Waiting q) (execStoreUpset offset data s) := by
  unfold execStoreUpset
  split
  · exact nextIn_next h
  · exact nextIn_fault _ _

theorem execDownstreamResponse_waiting (resp : BusResponse) : NextIn (Waiting q) (execDownstreamResponse resp s) := by
  unfold execDownstreamResponse
  split
  next f _ => exact nextIn_checked (waiting_of_pending (hostAnswered_pending f resp) h) _ _
  · exact nextIn_next h

theorem execLinkAccessResponse_waiting (resp : BusResponse) : NextIn (Waiting q) (execLinkAccessResponse resp s) := by
  unfold execLinkAccessResponse
  split
  next job _ =>
    have answered := waiting_of_pending (linkAccessAnswered_pending job resp) h
    exact nextIn_checked (waiting_of_pending considerNext_pending answered) _ _
  · exact nextIn_next h

theorem execSweepBlockResponse_waiting (resp : BusResponse) : NextIn (Waiting q) (execSweepBlockResponse resp s) := by
  unfold execSweepBlockResponse
  split
  next r b _ _ =>
    have answered := waiting_of_pending (sweepAnswered_pending r b resp) h
    exact nextIn_checked (waiting_of_pending considerNext_pending answered) _ _
  · exact nextIn_next h

theorem execTimestampTick_waiting : NextIn (Waiting q) (execTimestampTick s) := by
  refine nextIn_next ?_
  split
  · exact h
  · exact waiting_of_pending tick_pending h

end

/-- The rows that are no link command's. -/
theorem execEvent_waiting {q : List Instr} (i : Instr) (s : State) (hi : i.command = none) (h : Waiting q s) :
    NextIn (Waiting q) (exec i s) := by
  have considered : Keeps (Waiting q) considerNext := waiting_of_pending considerNext_pending
  cases i with
  | powerOnReset | resetRelease | fbypRelease | markPulseEnd => exact nextIn_next h
  | startupClearComplete => exact nextIn_next (waiting_of_pending completeClear_pending h)
  | fbypAssert => exact nextIn_next (waiting_of_pending assertFbyp_pending h)
  | storeUpset offset data => exact execStoreUpset_waiting h offset data
  | hostRequestAccept r => exact nextIn_checked (waiting_of_pending (presentRequest_pending r) h) _ _
  | downstreamResponse resp => exact execDownstreamResponse_waiting h resp
  | linkAccessResponse resp => exact execLinkAccessResponse_waiting h resp
  | sweepBlockResponse resp => exact execSweepBlockResponse_waiting h resp
  | downstreamTimeoutExpiry => exact nextIn_next (waiting_of_pending timeoutEvent_pending h)
  | holdExpiry => exact nextIn_next (waiting_of_pending endHoldByDrop_pending h)
  | timestampTick => exact execTimestampTick_waiting h
  | lselAssert => exact nextIn_next (waiting_of_pending assertLsel_pending h)
  | exchangeEnd ldi => exact nextIn_next (considered (waiting_of_pending (endExchange_pending ldi) h))
  | commandStart => exact nextIn_next (considered h)
  | unknownCommand seq code args =>
    exact nextIn_next (waiting_of_pending (submit_pending (runQueued_pending ⟨seq, code, args⟩)) h)
  | boundaryCommandExecution =>
    have executed := executeBoundary_keeps (fun b => waiting_of_pending (carry_pending b)) h
    exact nextIn_next (considered executed)
  | _ => cases hi

/-- No row touches the queue of waiting commands. -/
theorem exec_waiting {q : List Instr} (i : Instr) {s : State} (h : Waiting q s) : NextIn (Waiting q) (exec i s) :=
  exec_keeps (fun l => waiting_of_pending (·.withLink_pending l)) (fun c => waiting_of_pending (raise_pending c))
    (fun c => waiting_of_pending (runCommand_pending c)) execEvent_waiting i h

/-- Where a command waits, the step is that command's row at the queue's rest. -/
theorem step_of_pending {c : Instr} {rest : List Instr} {s : State} (h : s.pending = c :: rest) :
    step s = exec c (s.withPending rest) := by
  unfold step
  rw [h]

/-- Settles O1: the step is the front command's row (`step_of_pending`), and every row leaves the queue as it found it
(`exec_waiting`). -/
theorem stepRunsFrontCommand : Obligations.StepRunsFrontCommand :=
  ⟨fun _ _ _ h => step_of_pending h, fun c _ _ h => exec_waiting c rfl h⟩

end Sys2Proof.Proofs
